-- ==== Sys2Proof/Word.lean ====
section
/-! DEFINITION. The word types of the ports and registers, the index types of phases and slots, and the containers
that hold one value per phase or per slot. -/

namespace Sys2Proof

/-- A host register word (R40, R70). -/
abbrev Word := BitVec 32

/-- A byte of the optional byte-addressed placement of the register space (R75). -/
abbrev Byte := BitVec 8

/-- A command word, format CMD (R101). -/
abbrev CmdWord := BitVec 44

/-- An event word, format EV, one strobe per bit (R109). -/
abbrev EvWord := BitVec 5

/-- A response word, format RSP (R102). -/
abbrev RspWord := BitVec 34

/-- The three phases (R9, R13). -/
inductive Phase where
  | p0 | p1 | p2
deriving DecidableEq, Repr

/-- The number k of a phase. -/
def Phase.idx : Phase → Nat
  | .p0 => 0
  | .p1 => 1
  | .p2 => 2

/-- The two sides of a half-bridge (R13). -/
inductive Side where
  | low | high
deriving DecidableEq, Repr

/-- The six slots, one per phase and side (R16): `l` low-side, `h` high-side, then the phase. -/
inductive Slot where
  | l0 | h0 | l1 | h1 | l2 | h2
deriving DecidableEq, Repr

def Slot.phase : Slot → Phase
  | .l0 | .h0 => .p0
  | .l1 | .h1 => .p1
  | .l2 | .h2 => .p2

def Slot.side : Slot → Side
  | .l0 | .l1 | .l2 => .low
  | .h0 | .h1 | .h2 => .high

/-- Every slot once, in the order of the register addresses (R40). -/
def Slot.all : List Slot := [.l0, .h0, .l1, .h1, .l2, .h2]

/-- The low-side slot of a phase. -/
def Phase.lowSlot : Phase → Slot
  | .p0 => .l0
  | .p1 => .l1
  | .p2 => .l2

/-- The high-side slot of a phase. -/
def Phase.highSlot : Phase → Slot
  | .p0 => .h0
  | .p1 => .h1
  | .p2 => .h2

/-- One value for each phase. -/
structure PerPhase (α : Type) where
  v0 : α
  v1 : α
  v2 : α
deriving DecidableEq, Repr

def PerPhase.get {α : Type} (x : PerPhase α) : Phase → α
  | .p0 => x.v0
  | .p1 => x.v1
  | .p2 => x.v2

/-- The container whose value at each phase is given. -/
def PerPhase.tabulate {α : Type} (f : Phase → α) : PerPhase α := ⟨f .p0, f .p1, f .p2⟩

/-- The container with one phase's value replaced. -/
def PerPhase.set {α : Type} (x : PerPhase α) (k : Phase) (v : α) : PerPhase α :=
  PerPhase.tabulate fun j => if j = k then v else x.get j

/-- One value for each slot. -/
structure PerSlot (α : Type) where
  l0 : α
  h0 : α
  l1 : α
  h1 : α
  l2 : α
  h2 : α
deriving DecidableEq, Repr

def PerSlot.get {α : Type} (x : PerSlot α) : Slot → α
  | .l0 => x.l0
  | .h0 => x.h0
  | .l1 => x.l1
  | .h1 => x.h1
  | .l2 => x.l2
  | .h2 => x.h2

/-- The container whose value at each slot is given. -/
def PerSlot.tabulate {α : Type} (f : Slot → α) : PerSlot α := ⟨f .l0, f .h0, f .l1, f .h1, f .l2, f .h2⟩

/-- The container with one slot's value replaced. -/
def PerSlot.set {α : Type} (x : PerSlot α) (sl : Slot) (v : α) : PerSlot α :=
  PerSlot.tabulate fun j => if j = sl then v else x.get j

/-- The stored fields of a slot register `PH[k][s]` (R46): bits 7:0, bit 8 and bit 9. -/
structure SlotCfg where
  gpio : BitVec 8
  inv  : Bool
  idle : Bool
deriving DecidableEq, Repr

end Sys2Proof
end

