-- ==== Sys2Proof/Syntax.lean ====
section
/-! DEFINITION. The names the operations use (registers, enumerations, statuses) and the operations themselves: one
constructor of `Instr` per row of spec/opcode_table.json. -/

namespace Sys2Proof

/-- Codes of `OP_MODE` (R41, R111). -/
inductive OpMode where
  | off | ph1 | ph2 | ph3
deriving DecidableEq, Repr

/-- The raw value of an operating mode, which is its phase count n (R41). -/
def OpMode.code : OpMode → Nat
  | .off => 0
  | .ph1 => 1
  | .ph2 => 2
  | .ph3 => 3

/-- Codes of `CTRL_MODE` (R42, R111). The reserved code 3 is never stored (U10). -/
inductive CtrlMode where
  | directDuty | modAngle | modSpeed
deriving DecidableEq, Repr

def CtrlMode.code : CtrlMode → Nat
  | .directDuty => 0
  | .modAngle => 1
  | .modSpeed => 2

/-- Codes of `TRIG_SOURCE` and of the operand of `TRIG` (R52, R106, R111). -/
inductive TrigSource where
  | immediate | internalTimer | bus
deriving DecidableEq, Repr

def TrigSource.code : TrigSource → Nat
  | .immediate => 0
  | .internalTimer => 1
  | .bus => 2

/-- Codes of `BURST_TYPE` (R55, R111). -/
inductive BurstType where
  | continuous | ncycles | duration
deriving DecidableEq, Repr

def BurstType.code : BurstType → Nat
  | .continuous => 0
  | .ncycles => 1
  | .duration => 2

/-- The register `state` (R21). -/
inductive RunState where
  | idle | running
deriving DecidableEq, Repr

/-- Status codes of a response (R113). -/
inductive Status where
  | ok | conflict | outOfRange | illegal
deriving DecidableEq, Repr

def Status.code : Status → BitVec 2
  | .ok => 0
  | .conflict => 1
  | .outOfRange => 2
  | .illegal => 3

/-- The mapped registers of the host register space (R40). -/
inductive Reg where
  | opMode
  | ctrlMode
  | freq
  | deadtime
  | minDuty
  | ph0Ls
  | ph0Hs
  | ph1Ls
  | ph1Hs
  | ph2Ls
  | ph2Hs
  | duty0
  | duty1
  | duty2
  | modIndex
  | angle
  | speed
  | trigSource
  | trigDelay
  | timerInterval
  | burstType
  | burstCount
  | burstDuration
  | status
deriving DecidableEq, Repr

/-- The word address of a register (R40). -/
def Reg.addr : Reg → BitVec 8
  | .opMode => 0x00
  | .ctrlMode => 0x01
  | .freq => 0x02
  | .deadtime => 0x03
  | .minDuty => 0x04
  | .ph0Ls => 0x08
  | .ph0Hs => 0x09
  | .ph1Ls => 0x0A
  | .ph1Hs => 0x0B
  | .ph2Ls => 0x0C
  | .ph2Hs => 0x0D
  | .duty0 => 0x10
  | .duty1 => 0x11
  | .duty2 => 0x12
  | .modIndex => 0x13
  | .angle => 0x14
  | .speed => 0x15
  | .trigSource => 0x18
  | .trigDelay => 0x19
  | .timerInterval => 0x1A
  | .burstType => 0x1C
  | .burstCount => 0x1D
  | .burstDuration => 0x1E
  | .status => 0x20

/-- Every mapped register once, in address order. -/
def Reg.all : List Reg :=
  [.opMode, .ctrlMode, .freq, .deadtime, .minDuty, .ph0Ls, .ph0Hs, .ph1Ls, .ph1Hs, .ph2Ls, .ph2Hs, .duty0,
   .duty1, .duty2, .modIndex, .angle, .speed, .trigSource, .trigDelay, .timerInterval, .burstType, .burstCount, .burstDuration, .status]

/-- The operations of the block: one constructor per row of the opcode table (R119). A `wr` constructor carries the
32-bit `data` field, uninterpreted (R104, R110). -/
inductive Instr where
  /-- `WR OP_MODE, v` -/
  | wrOpMode (v : Word)
  /-- `WR CTRL_MODE, v` -/
  | wrCtrlMode (v : Word)
  /-- `WR FREQ, v` -/
  | wrFreq (v : Word)
  /-- `WR DEADTIME, v` -/
  | wrDeadtime (v : Word)
  /-- `WR MIN_DUTY, v` -/
  | wrMinDuty (v : Word)
  /-- `WR PH0_LS, v` -/
  | wrPh0Ls (v : Word)
  /-- `WR PH0_HS, v` -/
  | wrPh0Hs (v : Word)
  /-- `WR PH1_LS, v` -/
  | wrPh1Ls (v : Word)
  /-- `WR PH1_HS, v` -/
  | wrPh1Hs (v : Word)
  /-- `WR PH2_LS, v` -/
  | wrPh2Ls (v : Word)
  /-- `WR PH2_HS, v` -/
  | wrPh2Hs (v : Word)
  /-- `WR DUTY0, v` -/
  | wrDuty0 (v : Word)
  /-- `WR DUTY1, v` -/
  | wrDuty1 (v : Word)
  /-- `WR DUTY2, v` -/
  | wrDuty2 (v : Word)
  /-- `WR MOD_INDEX, v` -/
  | wrModIndex (v : Word)
  /-- `WR ANGLE, v` -/
  | wrAngle (v : Word)
  /-- `WR SPEED, v` -/
  | wrSpeed (v : Word)
  /-- `WR TRIG_SOURCE, v` -/
  | wrTrigSource (v : Word)
  /-- `WR TRIG_DELAY, v` -/
  | wrTrigDelay (v : Word)
  /-- `WR TIMER_INTERVAL, v` -/
  | wrTimerInterval (v : Word)
  /-- `WR BURST_TYPE, v` -/
  | wrBurstType (v : Word)
  /-- `WR BURST_COUNT, v` -/
  | wrBurstCount (v : Word)
  /-- `WR BURST_DURATION, v` -/
  | wrBurstDuration (v : Word)
  /-- `RD OP_MODE` -/
  | rdOpMode
  /-- `RD CTRL_MODE` -/
  | rdCtrlMode
  /-- `RD FREQ` -/
  | rdFreq
  /-- `RD DEADTIME` -/
  | rdDeadtime
  /-- `RD MIN_DUTY` -/
  | rdMinDuty
  /-- `RD PH0_LS` -/
  | rdPh0Ls
  /-- `RD PH0_HS` -/
  | rdPh0Hs
  /-- `RD PH1_LS` -/
  | rdPh1Ls
  /-- `RD PH1_HS` -/
  | rdPh1Hs
  /-- `RD PH2_LS` -/
  | rdPh2Ls
  /-- `RD PH2_HS` -/
  | rdPh2Hs
  /-- `RD DUTY0` -/
  | rdDuty0
  /-- `RD DUTY1` -/
  | rdDuty1
  /-- `RD DUTY2` -/
  | rdDuty2
  /-- `RD MOD_INDEX` -/
  | rdModIndex
  /-- `RD ANGLE` -/
  | rdAngle
  /-- `RD SPEED` -/
  | rdSpeed
  /-- `RD TRIG_SOURCE` -/
  | rdTrigSource
  /-- `RD TRIG_DELAY` -/
  | rdTrigDelay
  /-- `RD TIMER_INTERVAL` -/
  | rdTimerInterval
  /-- `RD BURST_TYPE` -/
  | rdBurstType
  /-- `RD BURST_COUNT` -/
  | rdBurstCount
  /-- `RD BURST_DURATION` -/
  | rdBurstDuration
  /-- `RD STATUS` -/
  | rdStatus
  /-- `TRIG IMMEDIATE` -/
  | trigImmediate
  /-- `TRIG INTERNAL_TIMER` -/
  | trigInternalTimer
  /-- `TRIG BUS` -/
  | trigBus
  /-- `ABORT` -/
  | abort
  /-- `RSTDEF` -/
  | rstdef
  /-- `CYCLE` -/
  | cycle
  /-- `POLL` -/
  | poll
  /-- `DLYEXP` -/
  | dlyexp
  /-- `ITFIRE` -/
  | itfire
  /-- `RSTDONE` -/
  | rstdone
deriving DecidableEq, Repr

/-- The event strobes in bit order (R109). -/
inductive Event where
  | cycle | poll | dlyexp | itfire | rstdone
deriving DecidableEq, Repr

def Event.bit : Event → Nat
  | .cycle => 0
  | .poll => 1
  | .dlyexp => 2
  | .itfire => 3
  | .rstdone => 4

def Event.all : List Event := [.cycle, .poll, .dlyexp, .itfire, .rstdone]

end Sys2Proof
end

