-- ==== Sys2Proof/Config.lean ====
section
/-! DEFINITION. The parameters of R8 as one record that a machine state carries: the platform values, the sine table and
the defaults `DEF_*`; the decided values of the table (D3), and the example set P0. -/

namespace Sys2Proof

/-- The decided log2 of the number of quarter-wave intervals, `TABLE_BITS` (R8, R131, D3). -/
def Config.tableBits : Nat := 8

/-- The decided amplitude scale of the table's entries, `AMP_BITS`: 1.0 is 2^16 (R8, R132, D3). -/
def Config.ampBits : Nat := 16

/-- A free value (DESIGN CHOICE, log entry 18): whether a modulated duty that falls between two duty numerators takes the
upper one, for an amplitude scale, a modulation index and a sine magnitude. With the decided scale none does (R243). -/
opaque Config.swingRoundsUp : (ampBits m mag : Nat) → Bool

/-- The counter limit 2^16 - 2 of the divider formula, doubled (R153). -/
def Config.twiceCounterLimit : Nat := 131068

namespace Config

/-- Entries 0 to 31 of the list of R133. -/
def romPart0 : List Nat :=
  [0, 402, 804, 1206, 1608, 2010, 2412, 2814,
   3216, 3617, 4019, 4420, 4821, 5222, 5623, 6023,
   6424, 6824, 7224, 7623, 8022, 8421, 8820, 9218,
   9616, 10014, 10411, 10808, 11204, 11600, 11996, 12391]

/-- Entries 32 to 63 of the list of R133. -/
def romPart1 : List Nat :=
  [12785, 13180, 13573, 13966, 14359, 14751, 15143, 15534,
   15924, 16314, 16703, 17091, 17479, 17867, 18253, 18639,
   19024, 19409, 19792, 20175, 20557, 20939, 21320, 21699,
   22078, 22457, 22834, 23210, 23586, 23961, 24335, 24708]

/-- Entries 64 to 95 of the list of R133. -/
def romPart2 : List Nat :=
  [25080, 25451, 25821, 26190, 26558, 26925, 27291, 27656,
   28020, 28383, 28745, 29106, 29466, 29824, 30182, 30538,
   30893, 31248, 31600, 31952, 32303, 32652, 33000, 33347,
   33692, 34037, 34380, 34721, 35062, 35401, 35738, 36075]

/-- Entries 96 to 127 of the list of R133. -/
def romPart3 : List Nat :=
  [36410, 36744, 37076, 37407, 37736, 38064, 38391, 38716,
   39040, 39362, 39683, 40002, 40320, 40636, 40951, 41264,
   41576, 41886, 42194, 42501, 42806, 43110, 43412, 43713,
   44011, 44308, 44604, 44898, 45190, 45480, 45769, 46056]

/-- Entries 128 to 159 of the list of R133. -/
def romPart4 : List Nat :=
  [46341, 46624, 46906, 47186, 47464, 47741, 48015, 48288,
   48559, 48828, 49095, 49361, 49624, 49886, 50146, 50404,
   50660, 50914, 51166, 51417, 51665, 51911, 52156, 52398,
   52639, 52878, 53114, 53349, 53581, 53812, 54040, 54267]

/-- Entries 160 to 191 of the list of R133. -/
def romPart5 : List Nat :=
  [54491, 54714, 54934, 55152, 55368, 55582, 55794, 56004,
   56212, 56418, 56621, 56823, 57022, 57219, 57414, 57607,
   57798, 57986, 58172, 58356, 58538, 58718, 58896, 59071,
   59244, 59415, 59583, 59750, 59914, 60075, 60235, 60392]

/-- Entries 192 to 223 of the list of R133. -/
def romPart6 : List Nat :=
  [60547, 60700, 60851, 60999, 61145, 61288, 61429, 61568,
   61705, 61839, 61971, 62101, 62228, 62353, 62476, 62596,
   62714, 62830, 62943, 63054, 63162, 63268, 63372, 63473,
   63572, 63668, 63763, 63854, 63944, 64031, 64115, 64197]

/-- Entries 224 to 255 of the list of R133. -/
def romPart7 : List Nat :=
  [64277, 64354, 64429, 64501, 64571, 64639, 64704, 64766,
   64827, 64884, 64940, 64993, 65043, 65091, 65137, 65180,
   65220, 65259, 65294, 65328, 65358, 65387, 65413, 65436,
   65457, 65476, 65492, 65505, 65516, 65525, 65531, 65535]

/-- Entries 256 to 256 of the list of R133. -/
def romPart8 : List Nat :=
  [65536]

/-- The decided quarter-wave table of R133 in rows of 32 entries. -/
def sineRows : List (List Nat) :=
  [romPart0, romPart1, romPart2, romPart3, romPart4, romPart5, romPart6, romPart7, romPart8]

/-- The 257 entries of the quarter-wave table, R133 (normative for the decided table). -/
def sineRom : List Nat := sineRows.flatten

end Config

/-- The parameters of R8: "the model takes the following parameters as arguments". `CLK_HZ`, `CH_REPEAT`, `NUM_GPIO` and
the defaults `DEF_*` of R62 are open; `TABLE_BITS`, `AMP_BITS` and `SINE_ROM` are decided (D3) and "kept as parameters so
that a model can state its theorems for other tables". The table stands in rows, as R133 lists it; how long the rows are
says nothing. A state carries the record and no operation writes it. DESIGN CHOICE, log entry 3. -/
structure Params where
  clkHz            : Nat
  chRepeat         : Nat
  numGpio          : Nat
  tableBits        : Nat
  ampBits          : Nat
  sineRows         : List (List Nat)
  defFreq          : Word
  defDeadtime      : Word
  defMinDuty       : Word
  defPh            : PerSlot SlotCfg
  defDuty          : PerPhase Word
  defModIndex      : Word
  defAngle         : Word
  defSpeed         : Word
  defTrigDelay     : Word
  defTimerInterval : Word
  defBurstCount    : Word
  defBurstDuration : Word
deriving DecidableEq, Repr

/-- N, the number of quarter-wave intervals (R8, R131). -/
def Params.tableSize (p : Params) : Nat := 2 ^ p.tableBits

/-- `SINE_ROM[0..N]`, the entries of the table in their order (R8). -/
def Params.sineRom (p : Params) : List Nat := p.sineRows.flatten

/-- `FRAC_BITS`, the width of the interpolation fraction (R8). -/
def Params.fracBits (p : Params) : Nat := 30 - p.tableBits

/-- `ONE`, the entry that stands for 1.0 (R8). -/
def Params.one (p : Params) : Nat := 2 ^ p.ampBits

/-- The example set P0 of R8 and R62, with the decided sine table. P0 "has no other standing"; no statement rests on it. -/
def Params.p0 : Params where
  clkHz            := 125000000
  chRepeat         := 16
  numGpio          := 30
  tableBits        := Config.tableBits
  ampBits          := Config.ampBits
  sineRows         := Config.sineRows
  defFreq          := 10000000
  defDeadtime      := 1000
  defMinDuty       := 0
  defPh            := ⟨⟨0, false, false⟩, ⟨1, false, false⟩, ⟨2, false, false⟩,
                       ⟨3, false, false⟩, ⟨4, false, false⟩, ⟨5, false, false⟩⟩
  defDuty          := ⟨32768, 32768, 32768⟩
  defModIndex      := 0
  defAngle         := 0
  defSpeed         := 0
  defTrigDelay     := 0
  defTimerInterval := 1000000
  defBurstCount    := 1
  defBurstDuration := 0

end Sys2Proof
end

