-- ==== Sys2Proof/Machine/Arith.lean ====
section
/-! DEFINITION. The rational arithmetic of R12 on naturals, and the formulas of the parameter compiler and of the
setters' bounds that are functions of numbers alone. -/

namespace Sys2Proof.Machine

/-- `ceil(a / b)` for b > 0 (R12). -/
def ceilDiv (a b : Nat) : Nat := (a + b - 1) / b

/-- `round(a / b)` for b > 0, round half up: `floor(a / b + 1/2)` (R12, D6). -/
def roundDiv (a b : Nat) : Nat := (2 * a + b) / (2 * b)

/-- `clamp(v, lo, hi)`, the lower test first (R12). -/
def clampNat (v lo hi : Nat) : Nat := if v < lo then lo else if v > hi then hi else v

/-- The divider of R153 before the clamp: `ceil(CLK * 1000 / (F * 131068))`, F in millihertz. -/
def dividerRaw (clk f : Nat) : Nat := ceilDiv (clk * 1000) (f * Config.twiceCounterLimit)

/-- Step 1 of `RECONFIG` (R153). -/
def dividerOf (clk f : Nat) : Nat := clampNat (dividerRaw clk f) 1 255

/-- Step 2 of `RECONFIG`, the counter period (R154). -/
def maxCounterOf (clk f : Nat) : Nat := roundDiv (clk * 1000) (f * 2 * dividerOf clk f)

/-- Step 4 of `RECONFIG`, the total deadtime counts (R159): DT in nanoseconds, F in millihertz. -/
def dtTotalOf (dt f mc : Nat) : Nat := roundDiv (dt * f * mc * 2) (10 ^ 12)

/-- Step 5 of `RECONFIG`, the lower clip bound as a duty numerator (R160). -/
def clipLoOf (md dt f : Nat) : Nat := ceilDiv ((md * 10 ^ 12 + dt * f * 65536) * 2 ^ 17) (10 ^ 12)

/-- `LEGALF(F)` (R152, R271). -/
def legalF (clk f : Nat) : Bool :=
  decide (1 ≤ f) && decide (dividerRaw clk f ≤ 255) && decide (1 ≤ maxCounterOf clk f)

/-- `INV4(F, DT, MD)` (R64 item 4, R271): the clip margin is below one half. -/
def inv4 (f dt md : Nat) : Bool :=
  decide (2 * md * 10 ^ 12 + 2 * 65536 * dt * f < 65536 * 10 ^ 12)

/-- Invariant 5 (R64): twice the magnitude of the speed is at most the carrier frequency. -/
def inv5 (speed : Int) (f : Nat) : Bool := decide (2 * speed.natAbs ≤ f)

/-- `chan_of(g) = g mod CH_REPEAT` (R156, D24). -/
def chanOf (p : Params) (g : BitVec 8) : Nat := g.toNat % p.chRepeat

/-- `burst_timeout` of a duration in microseconds: `ceil(us * CLK_HZ / 10^6)` (R27, R214). -/
def timeoutOf (clk us : Nat) : Nat := ceilDiv (us * clk) (10 ^ 6)

end Sys2Proof.Machine
end

