-- ==== Sys2Proof/WellFormed.lean ====
section
/-! DEFINITION. The checks on what is given to the model from outside: the parameter record (R8, R62), and a raw word
of a port in the opcode table's numbering (R101, R109, R114). Every term of `Instr` is an operation of the table: its
operand has the width of the `data` field by its type, so there is no ill-formed instruction to refuse. -/

namespace Sys2Proof

open Sys2Proof.Machine (legalF inv4 inv5 chanOf)

/-- The two default slots name one channel (R64 item 3). -/
def Params.slotsClash (p : Params) (a b : Slot) : Bool :=
  decide (a ≠ b) && decide (chanOf p (p.defPh.get a).gpio = chanOf p (p.defPh.get b).gpio)

/-- The platform values meet the constraints of R8. -/
def Params.platformWf (p : Params) : Bool :=
  decide (0 < p.clkHz) && decide (0 < p.chRepeat) && decide (1 ≤ p.numGpio) && decide (p.numGpio ≤ 256)

/-- The entries never fall from one to the next, starting from a value. -/
def risesFrom : Nat → List Nat → Bool
  | _, [] => true
  | a, b :: rest => decide (a ≤ b) && risesFrom b rest

/-- The sine table meets the constraints of R8: 1 to 29 index bits, N + 1 entries from 0 to `ONE`, non-decreasing. -/
def Params.tableWf (p : Params) : Bool :=
  decide (1 ≤ p.tableBits) && decide (p.tableBits ≤ 29) && decide (p.sineRom.length = p.tableSize + 1) &&
  decide (p.sineRom.getD 0 0 = 0) && decide (p.sineRom.getD p.tableSize 0 = p.one) && risesFrom 0 p.sineRom

/-- The default slots are legal (R46, R62): each names a GPIO that exists, and no two share a channel. -/
def Params.slotsWf (p : Params) : Bool :=
  Slot.all.all (fun a => decide ((p.defPh.get a).gpio.toNat < p.numGpio)) &&
  Slot.all.all (fun a => Slot.all.all fun b => !p.slotsClash a b)

/-- The default carrier, deadtime, minimum duty and speed satisfy R152 and items 4 and 5 of R64, and the raw range of
`MIN_DUTY` (R45). -/
def Params.carrierWf (p : Params) : Bool :=
  legalF p.clkHz p.defFreq.toNat && inv4 p.defFreq.toNat p.defDeadtime.toNat p.defMinDuty.toNat &&
  inv5 p.defSpeed.toInt p.defFreq.toNat && decide (p.defMinDuty.toNat ≤ 32767)

/-- The default runtime values lie in their raw ranges (R47, R48, R49). -/
def Params.runtimeWf (p : Params) : Bool :=
  decide (p.defDuty.v0.toNat ≤ 65536) && decide (p.defDuty.v1.toNat ≤ 65536) &&
  decide (p.defDuty.v2.toNat ≤ 65536) && decide (p.defModIndex.toNat ≤ 65536) &&
  decide (p.defAngle.toNat < 360000)

/-- The constraints of R8 and R62 on the parameters. -/
def Params.wf (p : Params) : Bool := p.platformWf && p.tableWf && p.slotsWf && p.carrierWf && p.runtimeWf

/-- A raw word of `nbits` bits in the numbering of the opcode table is a command word in its 44 bits (48 in whole
bytes) or an event word in its 5 bits (8 in whole bytes): no bit stands above the format (R114; log entry 11). -/
def rawWordWf (nbits w : Nat) : Bool :=
  if nbits = 48 ∨ nbits = 44 then decide (w < 2 ^ 44)
  else if nbits = 8 ∨ nbits = 5 then decide (w < 2 ^ 5)
  else false

end Sys2Proof
end

