-- ==== Sys2Proof/Decode.lean ====
section
/-! DEFINITION. The decoder of the command and event ports (R101 to R112, R119), the encoder, and the opcode table's
rows of the command format as data. -/

namespace Sys2Proof

/-- A word at one of the two operation inputs (R100). -/
inductive PortWord where
  | cmd (w : CmdWord)
  | ev (w : EvWord)
deriving DecidableEq, Repr

/-- Why a word is no operation (R112; the last for an event word without exactly one strobe, R109). -/
inductive Reject where
  | reservedOp | unmappedAddr | writeToStatus | readWithData
  | trigWithAddr | trigReservedData | operandNotZero | notOneStrobe
deriving DecidableEq, Repr

/-- Field `op` of a command word (R101). -/
def opField (w : CmdWord) : BitVec 4 := w.extractLsb' 40 4

/-- Field `addr` of a command word (R101). -/
def addrField (w : CmdWord) : BitVec 8 := w.extractLsb' 32 8

/-- Field `data` of a command word (R101). -/
def dataField (w : CmdWord) : Word := w.extractLsb' 0 32

/-- The register at a word address, if the address is mapped (R40, R74). -/
def Reg.ofAddr (a : BitVec 8) : Option Reg := Reg.all.find? fun r => decide (r.addr = a)

/-- The `WR` row of a register; `STATUS` has none (R104, R112). -/
def Reg.wrInstr (v : Word) : Reg → Except Reject Instr
  | .opMode => .ok (.wrOpMode v)
  | .ctrlMode => .ok (.wrCtrlMode v)
  | .freq => .ok (.wrFreq v)
  | .deadtime => .ok (.wrDeadtime v)
  | .minDuty => .ok (.wrMinDuty v)
  | .ph0Ls => .ok (.wrPh0Ls v)
  | .ph0Hs => .ok (.wrPh0Hs v)
  | .ph1Ls => .ok (.wrPh1Ls v)
  | .ph1Hs => .ok (.wrPh1Hs v)
  | .ph2Ls => .ok (.wrPh2Ls v)
  | .ph2Hs => .ok (.wrPh2Hs v)
  | .duty0 => .ok (.wrDuty0 v)
  | .duty1 => .ok (.wrDuty1 v)
  | .duty2 => .ok (.wrDuty2 v)
  | .modIndex => .ok (.wrModIndex v)
  | .angle => .ok (.wrAngle v)
  | .speed => .ok (.wrSpeed v)
  | .trigSource => .ok (.wrTrigSource v)
  | .trigDelay => .ok (.wrTrigDelay v)
  | .timerInterval => .ok (.wrTimerInterval v)
  | .burstType => .ok (.wrBurstType v)
  | .burstCount => .ok (.wrBurstCount v)
  | .burstDuration => .ok (.wrBurstDuration v)
  | .status => .error .writeToStatus

/-- The `RD` row of a register (R105). -/
def Reg.rdInstr : Reg → Instr
  | .opMode => .rdOpMode
  | .ctrlMode => .rdCtrlMode
  | .freq => .rdFreq
  | .deadtime => .rdDeadtime
  | .minDuty => .rdMinDuty
  | .ph0Ls => .rdPh0Ls
  | .ph0Hs => .rdPh0Hs
  | .ph1Ls => .rdPh1Ls
  | .ph1Hs => .rdPh1Hs
  | .ph2Ls => .rdPh2Ls
  | .ph2Hs => .rdPh2Hs
  | .duty0 => .rdDuty0
  | .duty1 => .rdDuty1
  | .duty2 => .rdDuty2
  | .modIndex => .rdModIndex
  | .angle => .rdAngle
  | .speed => .rdSpeed
  | .trigSource => .rdTrigSource
  | .trigDelay => .rdTrigDelay
  | .timerInterval => .rdTimerInterval
  | .burstType => .rdBurstType
  | .burstCount => .rdBurstCount
  | .burstDuration => .rdBurstDuration
  | .status => .rdStatus

/-- `WR addr, data` (R104). -/
def decodeWr (a : BitVec 8) (v : Word) : Except Reject Instr :=
  match Reg.ofAddr a with
  | some r => r.wrInstr v
  | none => .error .unmappedAddr

/-- `RD addr`: the data field must be 0 (R105). -/
def decodeRd (a : BitVec 8) (v : Word) : Except Reject Instr :=
  match Reg.ofAddr a with
  | some r => if v = 0 then .ok r.rdInstr else .error .readWithData
  | none => .error .unmappedAddr

/-- `TRIG src` (R106). -/
def decodeTrig (a : BitVec 8) (v : Word) : Except Reject Instr :=
  if a ≠ 0 then .error .trigWithAddr
  else if v = 0 then .ok .trigImmediate
  else if v = 1 then .ok .trigInternalTimer
  else if v = 2 then .ok .trigBus
  else .error .trigReservedData

/-- `ABORT` and `RSTDEF`: one word each (R107, R108). -/
def decodeBare (i : Instr) (a : BitVec 8) (v : Word) : Except Reject Instr :=
  if a = 0 ∧ v = 0 then .ok i else .error .operandNotZero

/-- The decoder of the command port (R103, R112, R119): total, a word that is no row is rejected by name. -/
def decodeCmd (w : CmdWord) : Except Reject Instr :=
  let a := addrField w
  let v := dataField w
  if opField w = 1 then decodeWr a v
  else if opField w = 2 then decodeRd a v
  else if opField w = 3 then decodeTrig a v
  else if opField w = 4 then decodeBare .abort a v
  else if opField w = 5 then decodeBare .rstdef a v
  else .error .reservedOp

/-- The operation of an event strobe (R109). -/
def Event.instr : Event → Instr
  | .cycle => .cycle
  | .poll => .poll
  | .dlyexp => .dlyexp
  | .itfire => .itfire
  | .rstdone => .rstdone

/-- The strobes of an event word, one operation each (R109, R119). -/
def strobes (w : EvWord) : List Event := Event.all.filter fun e => w.getLsbD e.bit

/-- An event word with exactly one bit set is one operation (R109). -/
def decodeEv (w : EvWord) : Except Reject Instr :=
  match strobes w with
  | [e] => .ok e.instr
  | _ => .error .notOneStrobe

/-- The decoder of both ports. -/
def decode : PortWord → Except Reject Instr
  | .cmd w => decodeCmd w
  | .ev w => decodeEv w

/-- The port word of a raw word in the opcode table's numbering. -/
def portWordOf (nbits w : Nat) : Option PortWord :=
  if rawWordWf nbits w then
    if nbits = 48 ∨ nbits = 44 then some (.cmd (BitVec.ofNat 44 w)) else some (.ev (BitVec.ofNat 5 w))
  else none

/-- The instruction the decoder reads from a raw word in the opcode table's numbering. -/
def decodeTableWord (nbits w : Nat) : Option Instr :=
  match portWordOf nbits w with
  | none => none
  | some p =>
    match decode p with
    | .ok i => some i
    | .error _ => none

/-- A command word from its three fields (R101). -/
def cmdWord (op : BitVec 4) (a : BitVec 8) (v : Word) : CmdWord := op ++ a ++ v

/-- `WR reg, v` as a word (R104). -/
def encodeWr (r : Reg) (v : Word) : PortWord := .cmd (cmdWord 1 r.addr v)

/-- `RD reg` as a word (R105). -/
def encodeRd (r : Reg) : PortWord := .cmd (cmdWord 2 r.addr 0)

/-- The word of an operation (R104 to R109). -/
def encode : Instr → PortWord
  | .wrOpMode v => encodeWr .opMode v
  | .wrCtrlMode v => encodeWr .ctrlMode v
  | .wrFreq v => encodeWr .freq v
  | .wrDeadtime v => encodeWr .deadtime v
  | .wrMinDuty v => encodeWr .minDuty v
  | .wrPh0Ls v => encodeWr .ph0Ls v
  | .wrPh0Hs v => encodeWr .ph0Hs v
  | .wrPh1Ls v => encodeWr .ph1Ls v
  | .wrPh1Hs v => encodeWr .ph1Hs v
  | .wrPh2Ls v => encodeWr .ph2Ls v
  | .wrPh2Hs v => encodeWr .ph2Hs v
  | .wrDuty0 v => encodeWr .duty0 v
  | .wrDuty1 v => encodeWr .duty1 v
  | .wrDuty2 v => encodeWr .duty2 v
  | .wrModIndex v => encodeWr .modIndex v
  | .wrAngle v => encodeWr .angle v
  | .wrSpeed v => encodeWr .speed v
  | .wrTrigSource v => encodeWr .trigSource v
  | .wrTrigDelay v => encodeWr .trigDelay v
  | .wrTimerInterval v => encodeWr .timerInterval v
  | .wrBurstType v => encodeWr .burstType v
  | .wrBurstCount v => encodeWr .burstCount v
  | .wrBurstDuration v => encodeWr .burstDuration v
  | .rdOpMode => encodeRd .opMode
  | .rdCtrlMode => encodeRd .ctrlMode
  | .rdFreq => encodeRd .freq
  | .rdDeadtime => encodeRd .deadtime
  | .rdMinDuty => encodeRd .minDuty
  | .rdPh0Ls => encodeRd .ph0Ls
  | .rdPh0Hs => encodeRd .ph0Hs
  | .rdPh1Ls => encodeRd .ph1Ls
  | .rdPh1Hs => encodeRd .ph1Hs
  | .rdPh2Ls => encodeRd .ph2Ls
  | .rdPh2Hs => encodeRd .ph2Hs
  | .rdDuty0 => encodeRd .duty0
  | .rdDuty1 => encodeRd .duty1
  | .rdDuty2 => encodeRd .duty2
  | .rdModIndex => encodeRd .modIndex
  | .rdAngle => encodeRd .angle
  | .rdSpeed => encodeRd .speed
  | .rdTrigSource => encodeRd .trigSource
  | .rdTrigDelay => encodeRd .trigDelay
  | .rdTimerInterval => encodeRd .timerInterval
  | .rdBurstType => encodeRd .burstType
  | .rdBurstCount => encodeRd .burstCount
  | .rdBurstDuration => encodeRd .burstDuration
  | .rdStatus => encodeRd .status
  | .trigImmediate => .cmd (cmdWord 3 0 0)
  | .trigInternalTimer => .cmd (cmdWord 3 0 1)
  | .trigBus => .cmd (cmdWord 3 0 2)
  | .abort => .cmd (cmdWord 4 0 0)
  | .rstdef => .cmd (cmdWord 5 0 0)
  | .cycle => .ev 0x01
  | .poll => .ev 0x02
  | .dlyexp => .ev 0x04
  | .itfire => .ev 0x08
  | .rstdone => .ev 0x10

/-- A row of the opcode table in the command format: `match`, `mask` and the operation its words are, as a function
of the data field. -/
structure CmdRow where
  pattern : CmdWord
  mask    : CmdWord
  instr   : Word → Instr

/-- The row performs its operation on this word (R119). -/
def CmdRow.hits (r : CmdRow) (w : CmdWord) : Prop := w &&& r.mask = r.pattern

/-- The 52 command rows of spec/opcode_table.json, in its order. -/
def cmdRows : List CmdRow :=
  [
    ⟨0x10000000000, 0xFFF00000000, .wrOpMode⟩,
    ⟨0x10100000000, 0xFFF00000000, .wrCtrlMode⟩,
    ⟨0x10200000000, 0xFFF00000000, .wrFreq⟩,
    ⟨0x10300000000, 0xFFF00000000, .wrDeadtime⟩,
    ⟨0x10400000000, 0xFFF00000000, .wrMinDuty⟩,
    ⟨0x10800000000, 0xFFF00000000, .wrPh0Ls⟩,
    ⟨0x10900000000, 0xFFF00000000, .wrPh0Hs⟩,
    ⟨0x10A00000000, 0xFFF00000000, .wrPh1Ls⟩,
    ⟨0x10B00000000, 0xFFF00000000, .wrPh1Hs⟩,
    ⟨0x10C00000000, 0xFFF00000000, .wrPh2Ls⟩,
    ⟨0x10D00000000, 0xFFF00000000, .wrPh2Hs⟩,
    ⟨0x11000000000, 0xFFF00000000, .wrDuty0⟩,
    ⟨0x11100000000, 0xFFF00000000, .wrDuty1⟩,
    ⟨0x11200000000, 0xFFF00000000, .wrDuty2⟩,
    ⟨0x11300000000, 0xFFF00000000, .wrModIndex⟩,
    ⟨0x11400000000, 0xFFF00000000, .wrAngle⟩,
    ⟨0x11500000000, 0xFFF00000000, .wrSpeed⟩,
    ⟨0x11800000000, 0xFFF00000000, .wrTrigSource⟩,
    ⟨0x11900000000, 0xFFF00000000, .wrTrigDelay⟩,
    ⟨0x11A00000000, 0xFFF00000000, .wrTimerInterval⟩,
    ⟨0x11C00000000, 0xFFF00000000, .wrBurstType⟩,
    ⟨0x11D00000000, 0xFFF00000000, .wrBurstCount⟩,
    ⟨0x11E00000000, 0xFFF00000000, .wrBurstDuration⟩,
    ⟨0x20000000000, 0xFFFFFFFFFFF, fun _ => .rdOpMode⟩,
    ⟨0x20100000000, 0xFFFFFFFFFFF, fun _ => .rdCtrlMode⟩,
    ⟨0x20200000000, 0xFFFFFFFFFFF, fun _ => .rdFreq⟩,
    ⟨0x20300000000, 0xFFFFFFFFFFF, fun _ => .rdDeadtime⟩,
    ⟨0x20400000000, 0xFFFFFFFFFFF, fun _ => .rdMinDuty⟩,
    ⟨0x20800000000, 0xFFFFFFFFFFF, fun _ => .rdPh0Ls⟩,
    ⟨0x20900000000, 0xFFFFFFFFFFF, fun _ => .rdPh0Hs⟩,
    ⟨0x20A00000000, 0xFFFFFFFFFFF, fun _ => .rdPh1Ls⟩,
    ⟨0x20B00000000, 0xFFFFFFFFFFF, fun _ => .rdPh1Hs⟩,
    ⟨0x20C00000000, 0xFFFFFFFFFFF, fun _ => .rdPh2Ls⟩,
    ⟨0x20D00000000, 0xFFFFFFFFFFF, fun _ => .rdPh2Hs⟩,
    ⟨0x21000000000, 0xFFFFFFFFFFF, fun _ => .rdDuty0⟩,
    ⟨0x21100000000, 0xFFFFFFFFFFF, fun _ => .rdDuty1⟩,
    ⟨0x21200000000, 0xFFFFFFFFFFF, fun _ => .rdDuty2⟩,
    ⟨0x21300000000, 0xFFFFFFFFFFF, fun _ => .rdModIndex⟩,
    ⟨0x21400000000, 0xFFFFFFFFFFF, fun _ => .rdAngle⟩,
    ⟨0x21500000000, 0xFFFFFFFFFFF, fun _ => .rdSpeed⟩,
    ⟨0x21800000000, 0xFFFFFFFFFFF, fun _ => .rdTrigSource⟩,
    ⟨0x21900000000, 0xFFFFFFFFFFF, fun _ => .rdTrigDelay⟩,
    ⟨0x21A00000000, 0xFFFFFFFFFFF, fun _ => .rdTimerInterval⟩,
    ⟨0x21C00000000, 0xFFFFFFFFFFF, fun _ => .rdBurstType⟩,
    ⟨0x21D00000000, 0xFFFFFFFFFFF, fun _ => .rdBurstCount⟩,
    ⟨0x21E00000000, 0xFFFFFFFFFFF, fun _ => .rdBurstDuration⟩,
    ⟨0x22000000000, 0xFFFFFFFFFFF, fun _ => .rdStatus⟩,
    ⟨0x30000000000, 0xFFFFFFFFFFF, fun _ => .trigImmediate⟩,
    ⟨0x30000000001, 0xFFFFFFFFFFF, fun _ => .trigInternalTimer⟩,
    ⟨0x30000000002, 0xFFFFFFFFFFF, fun _ => .trigBus⟩,
    ⟨0x40000000000, 0xFFFFFFFFFFF, fun _ => .abort⟩,
    ⟨0x50000000000, 0xFFFFFFFFFFF, fun _ => .rstdef⟩
  ]

end Sys2Proof
end

