-- ==== Sys2Proof/Machine/State.lean ====
section
/-! DEFINITION. The state of the block as plain data (R20), the reasons a step can stop, and the state after reset
(R63). -/

namespace Sys2Proof.Machine

/-- StaticConfig: the registers of R41 to R46. -/
structure StaticConfig where
  opMode   : OpMode
  ctrlMode : CtrlMode
  freq     : Word
  deadtime : Word
  minDuty  : Word
  ph       : PerSlot SlotCfg
deriving DecidableEq, Repr

/-- RuntimeParams: the registers of R47 to R49 and R51. `speed` is read as two's complement. -/
structure RuntimeParams where
  duty     : PerPhase Word
  modIndex : Word
  angle    : Word
  speed    : Word
deriving DecidableEq, Repr

/-- TriggerConfig: the registers of R52 to R54. -/
structure TriggerConfig where
  source   : TrigSource
  delay    : Word
  interval : Word
deriving DecidableEq, Repr

/-- BurstConfig: the registers of R55 to R57. -/
structure BurstConfig where
  kind     : BurstType
  count    : Word
  duration : Word
deriving DecidableEq, Repr

/-- The engine working registers (R21 to R28); `run` is the register `state`. -/
structure Engine where
  run           : RunState
  phaseAcc      : BitVec 32
  phaseDelta    : BitVec 32
  dutyActive    : PerPhase (BitVec 34)
  burstCycles   : BitVec 32
  burstTicks    : BitVec 64
  burstTimeout  : BitVec 64
  ticksPerCycle : BitVec 32
deriving DecidableEq, Repr

/-- DerivedHardwareParams (R59). A channel id lies below the open parameter `CH_REPEAT` and the mask has that many
bits, so both are naturals (log entry 12). -/
structure Derived where
  divider    : BitVec 8
  maxCounter : BitVec 17
  dtTotal    : BitVec 32
  dtLow      : BitVec 32
  dtHigh     : BitVec 32
  clipLo     : BitVec 34
  clipHi     : BitVec 34
  chan       : PerSlot Nat
  enableMask : Nat
  irqChan    : Nat
deriving DecidableEq, Repr

/-- A channel port record `CH[k][s]` (R65). `ctrReset` is the pulse: set while the operation that raised it is the
last one done (log entry 6). -/
structure Channel where
  chan     : Nat
  center   : Bool
  div      : BitVec 8
  wrap     : BitVec 17
  polInv   : Bool
  level    : BitVec 18
  enabled  : Bool
  ctrReset : Bool
deriving DecidableEq, Repr

/-- One request of the host: a word on the command port (R100, R101), or an access on the byte-addressed placement of
the register space (R75, R78; log entry 9). -/
inductive HostReq where
  /-- a command word -/
  | word (w : CmdWord)
  /-- a store of these bytes, lowest address first -/
  | busWrite (byteAddr : Nat) (bytes : List Byte)
  /-- a load of `size` bytes -/
  | busRead (byteAddr size : Nat)
deriving DecidableEq, Repr

/-- A host request with the input `out_en` as it stands when the request is served (R50). -/
structure HostCmd where
  req   : HostReq
  outEn : Bool
deriving DecidableEq, Repr

/-- Who presents an operation (R17). -/
inductive Source where
  | host
  | ev (e : Event)
deriving DecidableEq, Repr

/-- What is presented at one time: at most one host request, an event word, and the order `ARB` of this occasion as a
list, first served first (R100, R109, R349; log entry 2). -/
structure Occasion where
  cmd : Option HostCmd
  ev  : EvWord
  arb : List Source
deriving DecidableEq, Repr

/-- The state (R20), with the model's own fields `params`, `outEn`, `rsp` and `sched` (log entries 1 to 6). -/
structure State where
  /-- the parameters of R8; no operation writes them -/
  params       : Params
  stat         : StaticConfig
  runtime      : RuntimeParams
  trigger      : TriggerConfig
  burst        : BurstConfig
  eng          : Engine
  /-- the running flag (R30) -/
  running      : Bool
  /-- the hardware-config-dirty flag (R31) -/
  hwDirty      : Bool
  /-- the reload flag (R32) -/
  reload       : Bool
  /-- the trigger-pending flag (R33) -/
  trigPending  : Bool
  /-- `delay_pending`, also the timer port's `delay_armed` (R60, R77) -/
  delayPending : Bool
  /-- `itimer_armed`, also the timer port's `itimer_on` (R60, R77) -/
  itimerArmed  : Bool
  /-- `rst_wait` (R61) -/
  rstWait      : Bool
  drv          : Derived
  ch           : PerSlot Channel
  /-- `irq_en` of the channel port (R65) -/
  irqEn        : Bool
  /-- `irq_chan` of the channel port (R65) -/
  irqChan      : Nat
  /-- `delay_us` of the timer port (R77) -/
  delayUs      : Word
  /-- `itimer_us` of the timer port (R77) -/
  itimerUs     : Word
  /-- the input `out_en` as sampled at the host request being served (R50) -/
  outEn        : Bool
  /-- the response port: the word of the operation just done, if it answered (R102) -/
  rsp          : Option RspWord
  /-- presented and not yet served, oldest first -/
  sched        : List Occasion
deriving DecidableEq, Repr

/-- The reasons the machine stops. Both are treatments the spec names. -/
inductive Fault where
  /-- `RECONFIG`, or `DUTYPASS` in MOD_SPEED with a reload, at `FREQ` = 0: a division by zero (U2). Raised by `POLL` and
  `CYCLE`. Safe: the setters and the defaults keep `FREQ` legal, so no run reaches it. -/
  | freqZero
  /-- A host command executed while `rst_wait` = 1, which "does not occur" (U9). Raised by every host command. Safe: the
  command port does not serve the host then. -/
  | hostStuck
deriving DecidableEq, Repr

/-- Reasons of a refusal. -/
inductive Refusal where
  /-- An instruction without a meaning in this model, raised by the dispatch arm alone. Safe: the run ends. -/
  | notModelled (mnemonic : String)
deriving DecidableEq, Repr

/-- The outcome type of this machine. -/
abbrev Out := Host.Outcome State Fault Refusal

/-- The default configuration of R62: OFF, DIRECT_DUTY, BUS and CONTINUOUS, the rest the parameters `DEF_*`. -/
def StaticConfig.defaults (p : Params) : StaticConfig where
  opMode   := .off
  ctrlMode := .directDuty
  freq     := p.defFreq
  deadtime := p.defDeadtime
  minDuty  := p.defMinDuty
  ph       := p.defPh

def RuntimeParams.defaults (p : Params) : RuntimeParams where
  duty     := p.defDuty
  modIndex := p.defModIndex
  angle    := p.defAngle
  speed    := p.defSpeed

def TriggerConfig.defaults (p : Params) : TriggerConfig where
  source   := .bus
  delay    := p.defTrigDelay
  interval := p.defTimerInterval

def BurstConfig.defaults (p : Params) : BurstConfig where
  kind     := .continuous
  count    := p.defBurstCount
  duration := p.defBurstDuration

/-- A channel record at reset: `enabled` is 0 by R63, the rest is unspecified there (DESIGN CHOICE 0, log entry 4). -/
def Channel.atReset : Channel where
  chan     := 0
  center   := false
  div      := 0
  wrap     := 0
  polInv   := false
  level    := 0
  enabled  := false
  ctrReset := false

/-- The derived parameters at reset, all unspecified by R63 (DESIGN CHOICE 0, log entry 4). -/
def Derived.atReset : Derived where
  divider    := 0
  maxCounter := 0
  dtTotal    := 0
  dtLow      := 0
  dtHigh     := 0
  clipLo     := 0
  clipHi     := 0
  chan       := PerSlot.tabulate fun _ => 0
  enableMask := 0
  irqChan    := 0

/-- The working registers at reset (R63); `dutyActive` and `ticksPerCycle` are unspecified there (DESIGN CHOICE 0, log
entry 4). -/
def Engine.atReset : Engine where
  run           := .idle
  phaseAcc      := 0
  phaseDelta    := 0
  dutyActive    := PerPhase.tabulate fun _ => 0
  burstCycles   := 0
  burstTicks    := 0
  burstTimeout  := 0
  ticksPerCycle := 0

/-- The machine right after reset (R63, R380), for any parameters. -/
def State.resetWith (p : Params) : State where
  params       := p
  stat         := StaticConfig.defaults p
  runtime      := RuntimeParams.defaults p
  trigger      := TriggerConfig.defaults p
  burst        := BurstConfig.defaults p
  eng          := Engine.atReset
  running      := false
  hwDirty      := false
  reload       := false
  trigPending  := false
  delayPending := false
  itimerArmed  := false
  rstWait      := false
  drv          := Derived.atReset
  ch           := PerSlot.tabulate fun _ => Channel.atReset
  irqEn        := false
  irqChan      := 0
  delayUs      := 0
  itimerUs     := 0
  outEn        := false
  rsp          := none
  sched        := []

/-- The machine right after reset, with the spec's example parameters P0 (DESIGN CHOICE, log entry 3). -/
def State.reset : State := State.resetWith Params.p0

end Sys2Proof.Machine
end

