-- ==== Sys2Proof/Machine/Operands.lean ====
section
/-! DEFINITION. How each register reads its data word and gives it back (R72, R110), and the requests of the
byte-addressed placement (R75, R78). -/

namespace Sys2Proof.Machine

/-- The mode a whole data word names: bits 31:2 must be 0 and the code assigned (R41, R110, R111). -/
def opModeOf (v : Word) : Option OpMode :=
  if v = 0 then some .off
  else if v = 1 then some .ph1
  else if v = 2 then some .ph2
  else if v = 3 then some .ph3
  else none

/-- The control mode a data word names; 3 is reserved (R42, R111). -/
def ctrlModeOf (v : Word) : Option CtrlMode :=
  if v = 0 then some .directDuty
  else if v = 1 then some .modAngle
  else if v = 2 then some .modSpeed
  else none

/-- The trigger source a data word names; 3 is reserved (R52, R111). -/
def trigSourceOf (v : Word) : Option TrigSource :=
  if v = 0 then some .immediate
  else if v = 1 then some .internalTimer
  else if v = 2 then some .bus
  else none

/-- The burst type a data word names; 3 is reserved (R55, R111). -/
def burstTypeOf (v : Word) : Option BurstType :=
  if v = 0 then some .continuous
  else if v = 1 then some .ncycles
  else if v = 2 then some .duration
  else none

/-- The fields of a slot register in a data word (R46): `gpio` 7:0, `inv` 8, `idle` 9. -/
def slotCfgOf (v : Word) : SlotCfg where
  gpio := v.extractLsb' 0 8
  inv  := v.getLsbD 8
  idle := v.getLsbD 9

/-- Bits 31:10 of a slot register's data word, reserved (R46). -/
def slotReserved (v : Word) : BitVec 22 := v.extractLsb' 10 22

/-- A slot register as its word: the ten stored bits, the rest 0 (R46, R290). -/
def slotWord (c : SlotCfg) : Word :=
  (0 : BitVec 22) ++ (BitVec.ofBool c.idle ++ (BitVec.ofBool c.inv ++ c.gpio))

/-- The stored value of an `ANGLE` write: the i32 millidegrees modulo 360000, remainder not negative (R280, D32). -/
def wrapAngle (v : Word) : Word := BitVec.ofInt 32 (v.toInt % 360000)

/-- The word address of a byte access: 4 bytes, aligned, inside the 256 words (R75, R78; log entry 9). -/
def busWordAddr (byteAddr size : Nat) : Option (BitVec 8) :=
  if size = 4 ∧ byteAddr % 4 = 0 ∧ byteAddr < 1024 then some (BitVec.ofNat 8 (byteAddr / 4)) else none

/-- Four bytes as a word, little-endian: byte 0 is bits 7:0 (R75). -/
def busWord : List Byte → Word
  | [b0, b1, b2, b3] => b3 ++ (b2 ++ (b1 ++ b0))
  | _ => 0

/-- The command word a host request stands for; none for a byte access that is not one word (R78). -/
def hostReqWord : HostReq → Option CmdWord
  | .word w => some w
  | .busWrite byteAddr bytes => (busWordAddr byteAddr bytes.length).map fun a => cmdWord 1 a (busWord bytes)
  | .busRead byteAddr size => (busWordAddr byteAddr size).map fun a => cmdWord 2 a 0

end Sys2Proof.Machine
end

