-- ==== Sys2Proof/Machine/Flags.lean ====
section
/-! DEFINITION. The tests of the operations that are functions of the state alone: the published state, the status
word, the burst policy, the trigger condition, the slot tests. -/

namespace Sys2Proof.Machine

/-- The test "RUNNING" of a setter, on the published `state`, not on the flag (R271). -/
def State.isRunning (s : State) : Bool := decide (s.eng.run = .running)

/-- `STATUS`: bit 0 `state`, bit 1 `running`, the rest 0 (R58). -/
def State.statusWord (s : State) : Word :=
  (0 : BitVec 30) ++ (BitVec.ofBool s.running ++ BitVec.ofBool s.isRunning)

/-- The phase count n = `x[OP_MODE]` (R41). -/
abbrev State.phases (s : State) : Nat := s.stat.opMode.code

/-- Phase k is active: k < n (R16). -/
def phaseActive (n : Nat) (k : Phase) : Bool := decide (k.idx < n)

/-- A slot of an active phase (R16). -/
def slotActive (n : Nat) (sl : Slot) : Bool := phaseActive n sl.phase

/-- `BURST_STOP` (R188). -/
def State.burstStop (s : State) : Bool :=
  match s.burst.kind with
  | .continuous => false
  | .ncycles => decide (s.burst.count.toNat ≤ s.eng.burstCycles.toNat)
  | .duration => decide (s.eng.burstTimeout.toNat ≤ s.eng.burstTicks.toNat)

/-- The trigger condition of `POLL`: the flag, or the source IMMEDIATE as a standing condition (R212, D17). -/
def State.triggered (s : State) : Bool := s.trigPending || decide (s.trigger.source = .immediate)

/-- Another slot holds the channel of this GPIO (R277 check 5): all other slots, whatever the mode is. -/
def State.channelInUse (s : State) (sl : Slot) (g : BitVec 8) : Bool :=
  Slot.all.any fun other =>
    decide (other ≠ sl) && decide (chanOf s.params (s.stat.ph.get other).gpio = chanOf s.params g)

/-- A modulating control mode (R272, R273). -/
def modulates (m : CtrlMode) : Bool := decide (m ≠ .directDuty)

end Sys2Proof.Machine
end

