-- ==== Sys2Proof/Machine/Ops.lean ====
section
/-! DEFINITION. The named operations over the registers and ports: the response, the error status (the exception of
this block, R3, R340), the stores of the four configuration records with their flags, the guarded setter (R73, R271),
the register read (R72). -/

namespace Sys2Proof.Machine

/-- The word of a response (R102): bits 33:32 the status, bits 31:0 `rdata`. -/
def rspWord (st : Status) (rdata : Word) : RspWord := st.code ++ rdata

/-- A command ends by returning its response word (R102, R270). -/
def State.respond (s : State) (st : Status) (rdata : Word) : State := { s with rsp := some (rspWord st rdata) }

/-- TAKING AN EXCEPTION (R340): the command ends with the error status and `rdata` 0; no state changes, no control is
transferred, nothing is recorded. There is nothing to return from. -/
def State.fail (s : State) (st : Status) : State := s.respond st 0

/-- A StaticConfig store sets `hw_dirty`, also when the value is the old one (R31, R271, D30). -/
def State.storeStatic (s : State) (c : StaticConfig) : State := { s with stat := c, hwDirty := true }

/-- A RuntimeParams store sets `reload` (R32, R271, D30). -/
def State.storeRuntime (s : State) (c : RuntimeParams) : State := { s with runtime := c, reload := true }

/-- A TriggerConfig store; no flag (R271). -/
def State.storeTrigger (s : State) (c : TriggerConfig) : State := { s with trigger := c }

/-- A BurstConfig store; no flag (R271). -/
def State.storeBurst (s : State) (c : BurstConfig) : State := { s with burst := c }

/-- Host commands are enabled only while `rst_wait` = 0; Unit A is stuck otherwise (R61, R293, U9; log entry 7). -/
def hostCommand (s : State) (next : State) : Out :=
  if s.rstWait then .fault .hostStuck else .next next

/-- The status of the first failing check, if one fails (R271, R345). -/
def firstFailing : List (Bool × Status) → Option Status
  | [] => none
  | (fails, st) :: rest => if fails then some st else firstFailing rest

/-- The guarded setter (R73, R271): the checks in order, the first that fails decides the status and nothing is
stored; if all hold, the effect and the status OK. -/
def guardedSet (s : State) (checks : List (Bool × Status)) (effect : State) : Out :=
  hostCommand s
    (match firstFailing checks with
     | some st => s.fail st
     | none => effect.respond .ok 0)

/-- The raw value of a mapped register as a word (R72, R290). -/
def State.readReg (s : State) : Reg → Word
  | .opMode => BitVec.ofNat 32 s.stat.opMode.code
  | .ctrlMode => BitVec.ofNat 32 s.stat.ctrlMode.code
  | .freq => s.stat.freq
  | .deadtime => s.stat.deadtime
  | .minDuty => s.stat.minDuty
  | .ph0Ls => slotWord s.stat.ph.l0
  | .ph0Hs => slotWord s.stat.ph.h0
  | .ph1Ls => slotWord s.stat.ph.l1
  | .ph1Hs => slotWord s.stat.ph.h1
  | .ph2Ls => slotWord s.stat.ph.l2
  | .ph2Hs => slotWord s.stat.ph.h2
  | .duty0 => s.runtime.duty.v0
  | .duty1 => s.runtime.duty.v1
  | .duty2 => s.runtime.duty.v2
  | .modIndex => s.runtime.modIndex
  | .angle => s.runtime.angle
  | .speed => s.runtime.speed
  | .trigSource => BitVec.ofNat 32 s.trigger.source.code
  | .trigDelay => s.trigger.delay
  | .timerInterval => s.trigger.interval
  | .burstType => BitVec.ofNat 32 s.burst.kind.code
  | .burstCount => s.burst.count
  | .burstDuration => s.burst.duration
  | .status => s.statusWord

/-- `MemRead` of a mapped register (R72, R290): status OK, the value, no effect on any state. -/
def readCommand (s : State) (r : Reg) : Out := hostCommand s (s.respond .ok (s.readReg r))

/-- The pulses and the response of the operation before are over when the next one begins (log entry 6). -/
def State.clearWires (s : State) : State :=
  { s with
    rsp := none
    ch  := PerSlot.tabulate fun sl => { s.ch.get sl with ctrReset := false } }

/-- A micro-operation's result as an outcome. -/
def outcomeOf : Except Fault State → Out
  | .ok t => .next t
  | .error f => .fault f

end Sys2Proof.Machine
end

