-- ==== Sys2Proof/Machine/Arbiter.lean ====
section
/-! DEFINITION. What is served next (R100, R109, R349, R85): the pending occasions are taken oldest first, the operations of
one occasion in its order `ARB`, and the host is not served while it waits in `reset_to_defaults()` (R61, U9). -/

namespace Sys2Proof.Machine

/-- Every source once; the order in which a list `arb` that does not name them all is completed (log entry 2). -/
def Source.every : List Source :=
  [.host, .ev .cycle, .ev .poll, .ev .dlyexp, .ev .itfire, .ev .rstdone]

/-- The occasion presents an operation of this source. -/
def Occasion.offers (o : Occasion) : Source → Bool
  | .host => o.cmd.isSome
  | .ev e => o.ev.getLsbD e.bit

/-- The source may be served: the host only while it does not wait (U9). -/
def mayServe (hostWaits : Bool) : Source → Bool
  | .host => !hostWaits
  | .ev _ => true

/-- The source of this occasion served next, in the order `ARB`. -/
def Occasion.choose (hostWaits : Bool) (o : Occasion) : Option Source :=
  (o.arb ++ Source.every).find? fun src => o.offers src && mayServe hostWaits src

/-- The occasion without an operation already served. -/
def Occasion.without (o : Occasion) : Source → Occasion
  | .host => { o with cmd := none }
  | .ev e => { o with ev := o.ev &&& ~~~(1#5 <<< e.bit) }

/-- Nothing is left of the occasion. -/
def Occasion.spent (o : Occasion) : Bool := o.cmd.isNone && decide (o.ev = 0)

/-- Put an occasion back in front unless nothing is left of it. -/
def keepOccasion (o : Occasion) (rest : List Occasion) : List Occasion := if o.spent then rest else o :: rest

/-- One operation taken from the ports. -/
inductive Taken where
  | host (c : HostCmd)
  | event (e : Event)
deriving DecidableEq, Repr

/-- What the chosen source of an occasion presents. -/
def Occasion.take (o : Occasion) : Source → Option Taken
  | .host => o.cmd.map .host
  | .ev e => some (.event e)

/-- The operation served next and what stays pending; an occasion that has nothing to serve now stays in its place. -/
def takeNext (hostWaits : Bool) : List Occasion → Option (Taken × List Occasion)
  | [] => none
  | o :: rest =>
    match o.choose hostWaits with
    | some src => (o.take src).map fun t => (t, keepOccasion (o.without src) rest)
    | none => (takeNext hostWaits rest).map fun (t, rest') => (t, keepOccasion o rest')

/-- The state in which an operation runs: the wires of the one before are over, the occasion is consumed. -/
def State.served (s : State) (pending : List Occasion) : State := { s.clearWires with sched := pending }

/-- The state in which a host request runs: `out_en` is sampled (R50). -/
def State.servedHost (s : State) (c : HostCmd) (pending : List Occasion) : State :=
  { s.served pending with outEn := c.outEn }

/-- The operation a host request is, if its word is one (R112). -/
def hostInstr (c : HostCmd) : Option Instr :=
  match hostReqWord c.req with
  | none => none
  | some w =>
    match decodeCmd w with
    | .ok i => some i
    | .error _ => none

/-- The occasion that presents just one port word. -/
def occasionOf (outEn : Bool) : PortWord → Occasion
  | .cmd w => { cmd := some { req := .word w, outEn := outEn }, ev := 0, arb := [] }
  | .ev w => { cmd := none, ev := w, arb := [] }

/-- Present one raw word, in the opcode table's numbering, before everything pending; a raw word that is no word of a
port presents nothing. -/
def State.present (s : State) (nbits w : Nat) : State :=
  match portWordOf nbits w with
  | some p => { s with sched := occasionOf s.outEn p :: s.sched }
  | none => s

end Sys2Proof.Machine
end

