-- ==== Sys2Proof/Machine/Sine.lean ====
section
/-! DEFINITION. The sine table's lookup, the micro-operation `SINE` (R134 to R139). -/

namespace Sys2Proof.Machine

/-- Quadrant `a[31:30]` (R134). -/
def quadrantOf (a : BitVec 32) : Nat := a.toNat / 2 ^ 30

/-- Table index, the next `bits` bits (R134). -/
def tableIndexOf (bits : Nat) (a : BitVec 32) : Nat := a.toNat % 2 ^ 30 / 2 ^ (30 - bits)

/-- Interpolation fraction, the remaining bits (R134). -/
def fractionOf (bits : Nat) (a : BitVec 32) : Nat := a.toNat % 2 ^ (30 - bits)

/-- `ROM[i]` (R71, R130). -/
def romEntry (rom : List Nat) (i : Nat) : Int := (rom.getD i 0 : Nat)

/-- Linear interpolation, floor toward minus infinity (R135, D4). -/
def interpolate (lo hi : Int) (frac : Nat) (bits : Nat) : Int := lo + (hi - lo) * frac / 2 ^ (30 - bits)

/-- The magnitude of the lookup: quadrants 0 and 2 index forward, 1 and 3 in reverse (R135, R136). -/
def sineMagnitude (rom : List Nat) (bits : Nat) (a : BitVec 32) : Int :=
  let idx := tableIndexOf bits a
  let n := 2 ^ bits
  if quadrantOf a % 2 = 0 then
    interpolate (romEntry rom idx) (romEntry rom (idx + 1)) (fractionOf bits a) bits
  else
    interpolate (romEntry rom (n - idx)) (romEntry rom (n - idx - 1)) (fractionOf bits a) bits

/-- The lookup for any table of `2 ^ bits + 1` entries (R8, R135): quadrants 2 and 3 negate. -/
def sineWith (rom : List Nat) (bits : Nat) (a : BitVec 32) : Int :=
  if 2 ≤ quadrantOf a then - sineMagnitude rom bits a else sineMagnitude rom bits a

/-- `SINE(a)` (R135) with the table among the parameters (R8, R133). The operand is an angle modulo 2^32. -/
def sine (p : Params) (a : BitVec 32) : Int := sineWith p.sineRom p.tableBits a

end Sys2Proof.Machine
end

