-- ==== Sys2Proof/Machine/Cycle.lean ====
section
/-! DEFINITION. The cycle-boundary handler: the duty pass `DUTYPASS` (R240 to R251), the transition `TOIDLE` (R236,
R237) and the event `CYCLE` (R230, R250). -/

namespace Sys2Proof.Machine

/-- The phase offsets `off(n, k)` (R245, R246). -/
def phaseOffset : OpMode → Phase → BitVec 32
  | .ph2, .p1 => 0x80000000
  | .ph3, .p1 => 0x55555555
  | .ph3, .p2 => 0xAAAAAAAB
  | _, _ => 0

/-- `floor(A * 2^32 / 360000)` (R242). -/
def angleToAcc (a : Word) : BitVec 32 := BitVec.ofNat 32 (a.toNat * 2 ^ 32 / 360000)

/-- `floor(abs(S) * 2^32 / F)` with the sign of S, modulo 2^32 (R244). -/
def speedToDelta (speed freq : Word) : BitVec 32 :=
  let mag : Int := (speed.toInt.natAbs * 2 ^ 32 / freq.toNat : Nat)
  BitVec.ofInt 32 (if 0 ≤ speed.toInt then mag else -mag)

/-- `M * mag`, in duty numerators: M in 1/65536 times a sine magnitude in 1/`ONE`, halved, in units of 2^-33 (R243, D5).
With the decided `ONE` = 65536 it is exact; for a table with `AMP_BITS` above 16 a product between two numerators takes
one of them, a free value (DESIGN CHOICE, log entry 18). -/
def swingMagnitude (p : Params) (m mag : Nat) : Nat :=
  m * mag * 65536 / p.one +
    if m * mag * 65536 % p.one = 0 then 0 else (Config.swingRoundsUp p.ampBits m mag).toNat

/-- `M * SINE` in duty numerators (R243); opposite sine values give opposite swings (R245; beyond an
exact product the model's choice, log entry 18). -/
def dutySwing (p : Params) (m : Nat) (v : Int) : Int :=
  if 0 ≤ v then (swingMagnitude p m v.natAbs : Int) else -(swingMagnitude p m v.natAbs : Int)

/-- `2^32 + M * SINE(acc + off(n, k))`, a duty numerator (R243). -/
def modulatedDuty (s : State) (acc : BitVec 32) (k : Phase) : BitVec 34 :=
  BitVec.ofInt 34
    (2 ^ 32 + dutySwing s.params s.runtime.modIndex.toNat (sine s.params (acc + phaseOffset s.stat.opMode k)))

/-- Write the duties of the active phases; the others keep theirs (R241, R243). -/
def State.withDuties (s : State) (f : Phase → BitVec 34) : State :=
  { s with
    eng := { s.eng with
      dutyActive := PerPhase.tabulate fun k => if phaseActive s.phases k then f k else s.eng.dutyActive.get k } }

/-- Step 3 in DIRECT_DUTY (R241): on a reload copy the configured duties, in units of 2^-33. -/
def refreshDirect (rl : Bool) (s : State) : State :=
  if rl then s.withDuties fun k => BitVec.ofNat 34 ((s.runtime.duty.get k).toNat * 2 ^ 17) else s

/-- Step 3 in MOD_ANGLE (R242, R243). -/
def refreshAngle (rl : Bool) (s : State) : State :=
  let acc := if rl then angleToAcc s.runtime.angle else s.eng.phaseAcc
  State.withDuties { s with eng := { s.eng with phaseAcc := acc } } (modulatedDuty s acc)

/-- Step 3 in MOD_SPEED (R243, R244): the delta on a reload, then the advance, then the lookups (D12). -/
def refreshSpeed (rl : Bool) (s : State) : State :=
  let delta := if rl then speedToDelta s.runtime.speed s.stat.freq else s.eng.phaseDelta
  let acc := s.eng.phaseAcc + delta
  State.withDuties { s with eng := { s.eng with phaseDelta := delta, phaseAcc := acc } } (modulatedDuty s acc)

/-- Step 3 of the handler (R240). A reload in MOD_SPEED divides by `FREQ` (U2). -/
def refreshDuties (rl : Bool) (s : State) : Except Fault State :=
  match s.stat.ctrlMode with
  | .directDuty => .ok (refreshDirect rl s)
  | .modAngle => .ok (refreshAngle rl s)
  | .modSpeed => if rl && decide (s.stat.freq = 0) then .error .freqZero else .ok (refreshSpeed rl s)

/-- Step 4, the duty clipper (R247): lower test first. -/
def State.clippedDuty (s : State) (k : Phase) : Nat :=
  clampNat (s.eng.dutyActive.get k).toNat s.drv.clipLo.toNat s.drv.clipHi.toNat

/-- Step 5, first half: the compare counts, truncated (R248). -/
def State.counts (s : State) (k : Phase) : Nat := s.clippedDuty k * s.drv.maxCounter.toNat / 2 ^ 33

/-- Step 5, second half: deadtime insertion (R249, C1), a signed level. -/
def State.slotLevel (s : State) (sl : Slot) : Int :=
  match sl.side with
  | .low => (s.counts sl.phase : Int) - (s.drv.dtLow.toNat : Int)
  | .high => (s.counts sl.phase : Int) + (s.drv.dtHigh.toNat : Int)

/-- Steps 4 and 5 for every active phase (R240). -/
def State.withLevels (s : State) : State :=
  { s with
    ch := PerSlot.tabulate fun sl =>
      if slotActive s.phases sl then { s.ch.get sl with level := BitVec.ofInt 18 (s.slotLevel sl) }
      else s.ch.get sl }

/-- `DUTYPASS(force)` (R240): steps 3 to 5, then the reload flag is cleared (R251). -/
def dutyPass (force : Bool) (s : State) : Except Fault State :=
  match refreshDuties (force || s.reload) s with
  | .ok t => .ok { t.withLevels with reload := false }
  | .error f => .error f

/-- `idle_level` (R237): 0 for idle-low, `max_counter + 1` for idle-high. -/
def State.idleLevel (s : State) (idle : Bool) : Nat := if idle then s.drv.maxCounter.toNat + 1 else 0

/-- `TOIDLE` (R236). -/
def State.toIdle (s : State) : State :=
  { s with
    ch := PerSlot.tabulate fun sl =>
      if slotActive s.phases sl then
        { s.ch.get sl with
          enabled  := false
          level    := BitVec.ofNat 18 (s.idleLevel (s.stat.ph.get sl).idle)
          ctrReset := true }
      else s.ch.get sl
    irqEn       := false
    trigPending := false
    eng         := { s.eng with run := .idle }
    running     := false }

/-- Step 6 (R250): advance the counter the present burst type selects. -/
def State.advanceBurst (s : State) : State :=
  match s.burst.kind with
  | .continuous => s
  | .ncycles => { s with eng := { s.eng with burstCycles := s.eng.burstCycles + 1 } }
  | .duration =>
    { s with eng := { s.eng with burstTicks := s.eng.burstTicks + s.eng.ticksPerCycle.setWidth 64 } }

/-- The handler's body (R230): step 1 acknowledges and touches no state (R231), step 2 the termination check (R232),
then the duty pass and step 6. -/
def cycleHandler (s : State) : Except Fault State :=
  if s.burstStop || !s.running then .ok s.toIdle
  else
    match dutyPass false s with
    | .ok t => .ok t.advanceBurst
    | .error f => .error f

/-- `CYCLE` (R230): a wrap event is ignored while `irq_en` = 0. -/
def execCycle (s : State) : Out := if s.irqEn then outcomeOf (cycleHandler s) else .next s

end Sys2Proof.Machine
end

