-- ==== Sys2Proof/Machine/Trigger.lean ====
section
/-! DEFINITION. The trigger and burst coordinator: `CONFIGURE`, `ARM_DELAY`, `FIRE`, `DISPATCH` (R181 to R186), the
events `DLYEXP` and `ITFIRE`, and the `TRIG` commands. -/

namespace Sys2Proof.Machine

/-- `CONFIGURE(src)` (R181): cancel the internal timer; for INTERNAL_TIMER arm it at the configured interval. -/
def State.configure (s : State) (src : TrigSource) : State :=
  { s with
    itimerArmed := decide (src = .internalTimer)
    itimerUs    := if src = .internalTimer then s.trigger.interval else s.itimerUs }

/-- `ARM_DELAY` (R182): dropped while a delay is pending, else the one-shot is scheduled. -/
def State.armDelay (s : State) : State :=
  { s with
    delayPending := true
    delayUs      := if s.delayPending then s.delayUs else s.trigger.delay }

/-- `FIRE(src)` (R183): on a match arm the delay, on a mismatch nothing. -/
def State.fire (s : State) (src : TrigSource) : State := if src = s.trigger.source then s.armDelay else s

/-- `DISPATCH` (R186): waveform start is requested by the flag. -/
def State.dispatch (s : State) : State := { s with trigPending := true }

/-- `DLYEXP` (R184): enabled while a delay is pending; dispatch, then clear the handle. -/
def execDlyexp (s : State) : Out :=
  .next (if s.delayPending then { s.dispatch with delayPending := false } else s)

/-- `ITFIRE` (R185): enabled while the internal timer is armed; the timer stays armed. -/
def execItfire (s : State) : Out := .next (if s.itimerArmed then s.armDelay else s)

/-- `TRIG src` (R291): `FIRE(src)`, and OK whether or not the source matched. -/
def trigCommand (s : State) (src : TrigSource) : Out := hostCommand s ((s.fire src).respond .ok 0)

/-- `TRIG IMMEDIATE` (R106, R291). -/
def execTrigImmediate (s : State) : Out := trigCommand s .immediate

/-- `TRIG INTERNAL_TIMER` (R106, R291). -/
def execTrigInternalTimer (s : State) : Out := trigCommand s .internalTimer

/-- `TRIG BUS` (R106, R291). -/
def execTrigBus (s : State) : Out := trigCommand s .bus

end Sys2Proof.Machine
end

