-- ==== Sys2Proof/Machine/HostOps.lean ====
section
/-! DEFINITION. `ABORT` (R292), and `reset_to_defaults()` as its two operations `RSTDEF` (R293) and `RSTDONE` (R294). -/

namespace Sys2Proof.Machine

/-- `ABORT` (R292): clears the running flag; the interrupt performs the stop. -/
def execAbort (s : State) : Out := hostCommand s (State.respond { s with running := false } .ok 0)

/-- `RSTDEF` (R293), the first phase: no response yet, the command stays outstanding. -/
def execRstdef (s : State) : Out := hostCommand s { s with running := false, rstWait := true }

/-- Every configuration register to its default (R62, R294): a forced write, without a setter's checks. -/
def State.restoreDefaults (s : State) : State :=
  { s with
    stat    := StaticConfig.defaults s.params
    runtime := RuntimeParams.defaults s.params
    trigger := TriggerConfig.defaults s.params
    burst   := BurstConfig.defaults s.params
    hwDirty := true
    reload  := true }

/-- The effect of `RSTDONE` (R294): the restore, `CONFIGURE` of the default source, the end of the wait, and the
response of the outstanding `RSTDEF`. -/
def State.completeReset (s : State) : State :=
  State.respond
    { (s.restoreDefaults).configure (s.restoreDefaults).trigger.source with rstWait := false } .ok 0

/-- `RSTDONE` (R294): enabled while `rst_wait` = 1 and `state` = IDLE. -/
def execRstdone (s : State) : Out :=
  .next (if s.rstWait && !s.isRunning then s.completeReset else s)

end Sys2Proof.Machine
end

