-- ==== Sys2Proof/Machine/Read.lean ====
section
/-! DEFINITION. The `RD` commands (R72, R290). -/

namespace Sys2Proof.Machine

/-- `RD OP_MODE` (R290). -/
def execRdOpMode (s : State) : Out := readCommand s .opMode

/-- `RD CTRL_MODE` (R290). -/
def execRdCtrlMode (s : State) : Out := readCommand s .ctrlMode

/-- `RD FREQ` (R290). -/
def execRdFreq (s : State) : Out := readCommand s .freq

/-- `RD DEADTIME` (R290). -/
def execRdDeadtime (s : State) : Out := readCommand s .deadtime

/-- `RD MIN_DUTY` (R290). -/
def execRdMinDuty (s : State) : Out := readCommand s .minDuty

/-- `RD PH0_LS` (R290). -/
def execRdPh0Ls (s : State) : Out := readCommand s .ph0Ls

/-- `RD PH0_HS` (R290). -/
def execRdPh0Hs (s : State) : Out := readCommand s .ph0Hs

/-- `RD PH1_LS` (R290). -/
def execRdPh1Ls (s : State) : Out := readCommand s .ph1Ls

/-- `RD PH1_HS` (R290). -/
def execRdPh1Hs (s : State) : Out := readCommand s .ph1Hs

/-- `RD PH2_LS` (R290). -/
def execRdPh2Ls (s : State) : Out := readCommand s .ph2Ls

/-- `RD PH2_HS` (R290). -/
def execRdPh2Hs (s : State) : Out := readCommand s .ph2Hs

/-- `RD DUTY0` (R290). -/
def execRdDuty0 (s : State) : Out := readCommand s .duty0

/-- `RD DUTY1` (R290). -/
def execRdDuty1 (s : State) : Out := readCommand s .duty1

/-- `RD DUTY2` (R290). -/
def execRdDuty2 (s : State) : Out := readCommand s .duty2

/-- `RD MOD_INDEX` (R290). -/
def execRdModIndex (s : State) : Out := readCommand s .modIndex

/-- `RD ANGLE` (R290). -/
def execRdAngle (s : State) : Out := readCommand s .angle

/-- `RD SPEED` (R290). -/
def execRdSpeed (s : State) : Out := readCommand s .speed

/-- `RD TRIG_SOURCE` (R290). -/
def execRdTrigSource (s : State) : Out := readCommand s .trigSource

/-- `RD TRIG_DELAY` (R290). -/
def execRdTrigDelay (s : State) : Out := readCommand s .trigDelay

/-- `RD TIMER_INTERVAL` (R290). -/
def execRdTimerInterval (s : State) : Out := readCommand s .timerInterval

/-- `RD BURST_TYPE` (R290). -/
def execRdBurstType (s : State) : Out := readCommand s .burstType

/-- `RD BURST_COUNT` (R290). -/
def execRdBurstCount (s : State) : Out := readCommand s .burstCount

/-- `RD BURST_DURATION` (R290). -/
def execRdBurstDuration (s : State) : Out := readCommand s .burstDuration

/-- `RD STATUS` (R290). -/
def execRdStatus (s : State) : Out := readCommand s .status

end Sys2Proof.Machine
end

