-- ==== Sys2Proof/Machine/Compiler.lean ====
section
/-! DEFINITION. The hardware parameter compiler, the micro-operation `RECONFIG` (R150 to R164). -/

namespace Sys2Proof.Machine

/-- The divider of the present StaticConfig (R153). -/
def State.newDivider (s : State) : Nat := dividerOf s.params.clkHz s.stat.freq.toNat

/-- The counter period of the present StaticConfig (R154). -/
def State.newMaxCounter (s : State) : Nat := maxCounterOf s.params.clkHz s.stat.freq.toNat

/-- The total deadtime counts of the present StaticConfig (R159). -/
def State.newDtTotal (s : State) : Nat :=
  dtTotalOf s.stat.deadtime.toNat s.stat.freq.toNat s.newMaxCounter

/-- The lower clip bound of the present StaticConfig (R160). -/
def State.newClipLo (s : State) : Nat :=
  clipLoOf s.stat.minDuty.toNat s.stat.deadtime.toNat s.stat.freq.toNat

/-- The channel a slot's GPIO resolves to (R155, R156). -/
def State.newChan (s : State) (sl : Slot) : Nat := chanOf s.params (s.stat.ph.get sl).gpio

/-- The enable mask: bit `chan[k][s]` for every slot of an active phase (R155). -/
def State.newEnableMask (s : State) : Nat :=
  Slot.all.foldl (fun mask sl => if slotActive s.phases sl then mask ||| 2 ^ s.newChan sl else mask) 0

/-- The interrupt source: the first phase's low-side channel if a phase is active, else unchanged (R161). -/
def State.newIrqChan (s : State) (old : Nat) : Nat := if 1 ≤ s.phases then s.newChan .l0 else old

/-- The output polarity of a slot: the configured inversion for low-side, its complement for high-side (R155, R157). -/
def State.newPolarity (s : State) (sl : Slot) : Bool :=
  match sl.side with
  | .low => (s.stat.ph.get sl).inv
  | .high => !(s.stat.ph.get sl).inv

/-- The fields of DerivedHardwareParams (R164). The formulas are on unbounded integers; each result is stored in its
field's width (log entry 8). -/
def State.compiled (s : State) : Derived where
  divider    := BitVec.ofNat 8 s.newDivider
  maxCounter := BitVec.ofNat 17 s.newMaxCounter
  dtTotal    := BitVec.ofNat 32 s.newDtTotal
  dtLow      := BitVec.ofNat 32 (s.newDtTotal / 2)
  dtHigh     := BitVec.ofNat 32 ((s.newDtTotal + 1) / 2)
  clipLo     := BitVec.ofNat 34 s.newClipLo
  clipHi     := BitVec.ofInt 34 (2 ^ 33 - s.newClipLo)
  chan       := PerSlot.tabulate fun sl => if slotActive s.phases sl then s.newChan sl else s.drv.chan.get sl
  enableMask := s.newEnableMask
  irqChan    := s.newIrqChan s.drv.irqChan

/-- The programming of one slot's channel record (R155). -/
def State.programmed (s : State) (sl : Slot) : Channel :=
  { s.ch.get sl with
    chan   := s.newChan sl
    center := true
    div    := BitVec.ofNat 8 s.newDivider
    wrap   := BitVec.ofNat 17 s.newMaxCounter
    polInv := s.newPolarity sl }

/-- The writes of `RECONFIG` (R164): the derived parameters, `ticks_per_cycle` (R162), the records of active slots and
`irq_chan`; records of inactive phases keep what they hold. -/
def State.reconfigured (s : State) : State :=
  { s with
    drv     := s.compiled
    eng     := { s.eng with ticksPerCycle := BitVec.ofNat 32 (2 * s.newDivider * s.newMaxCounter) }
    ch      := PerSlot.tabulate fun sl => if slotActive s.phases sl then s.programmed sl else s.ch.get sl
    irqChan := s.newIrqChan s.irqChan }

/-- `RECONFIG` (R164): a total transform, but for the division by `FREQ` = 0 (R151, U2). -/
def reconfig (s : State) : Except Fault State :=
  if s.stat.freq = 0 then .error .freqZero else .ok s.reconfigured

end Sys2Proof.Machine
end

