-- ==== Sys2Proof/Machine/Supervisor.lean ====
section
/-! DEFINITION. The supervisory loop: the transition `START` (R214) and the event `POLL` (R210 to R212). -/

namespace Sys2Proof.Machine

/-- The writes of `START` before the priming pass: the resets come first (R214, C7, D13). -/
def State.startReset (s : State) : State :=
  { s with
    trigPending := false
    running     := true
    eng         := { s.eng with
      run          := .running
      phaseAcc     := 0
      burstCycles  := 0
      burstTicks   := 0
      burstTimeout := BitVec.ofNat 64 (timeoutOf s.params.clkHz s.burst.duration.toNat) } }

/-- The writes of `START` after the priming pass: enable the channels and the interrupt (R214). -/
def State.enableOutputs (s : State) : State :=
  { s with
    ch := PerSlot.tabulate fun sl =>
      if slotActive s.phases sl then { s.ch.get sl with enabled := true } else s.ch.get sl
    irqEn := true }

/-- `START` (R214). -/
def start (s : State) : Except Fault State :=
  match dutyPass true s.startReset with
  | .ok t => .ok t.enableOutputs
  | .error f => .error f

/-- Part 1 of `POLL` (R211). -/
def pollReconfig (s : State) : Except Fault State :=
  if s.isRunning = false ∧ s.hwDirty = true then
    match reconfig s with
    | .ok t => .ok { t with hwDirty := false }
    | .error f => .error f
  else .ok s

/-- Part 2 of `POLL` (R212): in OFF mode the trigger is dropped (D17). -/
def pollTrigger (s : State) : Except Fault State :=
  if s.isRunning = false ∧ s.running = false ∧ s.triggered = true then
    if s.stat.opMode = .off then .ok { s with trigPending := false } else start s
  else .ok s

/-- `POLL` (R210): always enabled; both parts in one operation. -/
def execPoll (s : State) : Out :=
  match pollReconfig s with
  | .ok t => outcomeOf (pollTrigger t)
  | .error f => .fault f

end Sys2Proof.Machine
end

