-- ==== Sys2Proof/Machine/Write.lean ====
section
/-! DEFINITION. The `WR` commands, one guarded setter per register (R271 to R287). The checks stand in the order of the
register's rule. -/

namespace Sys2Proof.Machine

/-- `WR OP_MODE, v` (R272). -/
def execWrOpMode (v : Word) (s : State) : Out :=
  guardedSet s
    [(s.isRunning, .conflict),
     (decide (3 < v.toNat), .outOfRange),
     (decide (v = 1) && modulates s.stat.ctrlMode, .conflict)]
    (match opModeOf v with
     | some m => s.storeStatic { s.stat with opMode := m }
     | none => s)

/-- `WR CTRL_MODE, v` (R273). -/
def execWrCtrlMode (v : Word) (s : State) : Out :=
  guardedSet s
    [(s.isRunning, .conflict),
     (decide (2 < v.toNat), .outOfRange),
     (decide (s.stat.opMode = .ph1) && decide (v ≠ 0), .conflict)]
    (match ctrlModeOf v with
     | some m => s.storeStatic { s.stat with ctrlMode := m }
     | none => s)

/-- `WR FREQ, v` (R274). -/
def execWrFreq (v : Word) (s : State) : Out :=
  guardedSet s
    [(s.isRunning, .conflict),
     (!legalF s.params.clkHz v.toNat, .outOfRange),
     (!inv4 v.toNat s.stat.deadtime.toNat s.stat.minDuty.toNat, .outOfRange),
     (!inv5 s.runtime.speed.toInt v.toNat, .conflict)]
    (s.storeStatic { s.stat with freq := v })

/-- `WR DEADTIME, v` (R275). -/
def execWrDeadtime (v : Word) (s : State) : Out :=
  guardedSet s
    [(s.isRunning, .conflict),
     (!inv4 s.stat.freq.toNat v.toNat s.stat.minDuty.toNat, .outOfRange)]
    (s.storeStatic { s.stat with deadtime := v })

/-- `WR MIN_DUTY, v` (R276). -/
def execWrMinDuty (v : Word) (s : State) : Out :=
  guardedSet s
    [(s.isRunning, .conflict),
     (decide (32767 < v.toNat), .outOfRange),
     (!inv4 s.stat.freq.toNat s.stat.deadtime.toNat v.toNat, .outOfRange)]
    (s.storeStatic { s.stat with minDuty := v })

/-- `WR PHk_s, v` for the slot named (R277). -/
def wrSlot (sl : Slot) (v : Word) (s : State) : Out :=
  guardedSet s
    [(s.isRunning, .conflict),
     (s.outEn, .conflict),
     (decide (slotReserved v ≠ 0), .outOfRange),
     (decide (s.params.numGpio ≤ (slotCfgOf v).gpio.toNat), .outOfRange),
     (s.channelInUse sl (slotCfgOf v).gpio, .conflict)]
    (s.storeStatic { s.stat with ph := s.stat.ph.set sl (slotCfgOf v) })

/-- `WR PH0_LS, v` (R277). -/
def execWrPh0Ls (v : Word) (s : State) : Out := wrSlot .l0 v s

/-- `WR PH0_HS, v` (R277). -/
def execWrPh0Hs (v : Word) (s : State) : Out := wrSlot .h0 v s

/-- `WR PH1_LS, v` (R277). -/
def execWrPh1Ls (v : Word) (s : State) : Out := wrSlot .l1 v s

/-- `WR PH1_HS, v` (R277). -/
def execWrPh1Hs (v : Word) (s : State) : Out := wrSlot .h1 v s

/-- `WR PH2_LS, v` (R277). -/
def execWrPh2Ls (v : Word) (s : State) : Out := wrSlot .l2 v s

/-- `WR PH2_HS, v` (R277). -/
def execWrPh2Hs (v : Word) (s : State) : Out := wrSlot .h2 v s

/-- `WR DUTYk, v` for the phase named (R278): no state precondition. -/
def wrDuty (k : Phase) (v : Word) (s : State) : Out :=
  guardedSet s
    [(decide (65536 < v.toNat), .outOfRange)]
    (s.storeRuntime { s.runtime with duty := s.runtime.duty.set k v })

/-- `WR DUTY0, v` (R278). -/
def execWrDuty0 (v : Word) (s : State) : Out := wrDuty .p0 v s

/-- `WR DUTY1, v` (R278). -/
def execWrDuty1 (v : Word) (s : State) : Out := wrDuty .p1 v s

/-- `WR DUTY2, v` (R278). -/
def execWrDuty2 (v : Word) (s : State) : Out := wrDuty .p2 v s

/-- `WR MOD_INDEX, v` (R279). -/
def execWrModIndex (v : Word) (s : State) : Out :=
  guardedSet s
    [(decide (65536 < v.toNat), .outOfRange)]
    (s.storeRuntime { s.runtime with modIndex := v })

/-- `WR ANGLE, v` (R280): never rejected, stored modulo 360000. -/
def execWrAngle (v : Word) (s : State) : Out :=
  guardedSet s [] (s.storeRuntime { s.runtime with angle := wrapAngle v })

/-- `WR SPEED, v` (R281), v as two's complement. -/
def execWrSpeed (v : Word) (s : State) : Out :=
  guardedSet s
    [(!inv5 v.toInt s.stat.freq.toNat, .conflict)]
    (s.storeRuntime { s.runtime with speed := v })

/-- `WR TRIG_SOURCE, v` (R282): the store, then `CONFIGURE`. -/
def execWrTrigSource (v : Word) (s : State) : Out :=
  guardedSet s
    [(decide (2 < v.toNat), .outOfRange)]
    (match trigSourceOf v with
     | some src => (s.storeTrigger { s.trigger with source := src }).configure src
     | none => s)

/-- `WR TRIG_DELAY, v` (R283). -/
def execWrTrigDelay (v : Word) (s : State) : Out :=
  guardedSet s [] (s.storeTrigger { s.trigger with delay := v })

/-- `WR TIMER_INTERVAL, v` (R284). -/
def execWrTimerInterval (v : Word) (s : State) : Out :=
  guardedSet s [] (s.storeTrigger { s.trigger with interval := v })

/-- `WR BURST_TYPE, v` (R285). -/
def execWrBurstType (v : Word) (s : State) : Out :=
  guardedSet s
    [(decide (2 < v.toNat), .outOfRange)]
    (match burstTypeOf v with
     | some b => s.storeBurst { s.burst with kind := b }
     | none => s)

/-- `WR BURST_COUNT, v` (R286). -/
def execWrBurstCount (v : Word) (s : State) : Out :=
  guardedSet s [] (s.storeBurst { s.burst with count := v })

/-- `WR BURST_DURATION, v` (R287). -/
def execWrBurstDuration (v : Word) (s : State) : Out :=
  guardedSet s [] (s.storeBurst { s.burst with duration := v })

end Sys2Proof.Machine
end

