-- ==== Sys2Proof/Machine/Dispatch.lean ====
section
/-! DEFINITION. The dispatch: one arm per operation of the opcode table. -/

namespace Sys2Proof.Machine

def exec (i : Instr) (s : State) : Host.Outcome State Fault Refusal :=
  match i with
  | .wrOpMode v => Sys2Proof.Machine.execWrOpMode v s
  | .wrCtrlMode v => Sys2Proof.Machine.execWrCtrlMode v s
  | .wrFreq v => Sys2Proof.Machine.execWrFreq v s
  | .wrDeadtime v => Sys2Proof.Machine.execWrDeadtime v s
  | .wrMinDuty v => Sys2Proof.Machine.execWrMinDuty v s
  | .wrPh0Ls v => Sys2Proof.Machine.execWrPh0Ls v s
  | .wrPh0Hs v => Sys2Proof.Machine.execWrPh0Hs v s
  | .wrPh1Ls v => Sys2Proof.Machine.execWrPh1Ls v s
  | .wrPh1Hs v => Sys2Proof.Machine.execWrPh1Hs v s
  | .wrPh2Ls v => Sys2Proof.Machine.execWrPh2Ls v s
  | .wrPh2Hs v => Sys2Proof.Machine.execWrPh2Hs v s
  | .wrDuty0 v => Sys2Proof.Machine.execWrDuty0 v s
  | .wrDuty1 v => Sys2Proof.Machine.execWrDuty1 v s
  | .wrDuty2 v => Sys2Proof.Machine.execWrDuty2 v s
  | .wrModIndex v => Sys2Proof.Machine.execWrModIndex v s
  | .wrAngle v => Sys2Proof.Machine.execWrAngle v s
  | .wrSpeed v => Sys2Proof.Machine.execWrSpeed v s
  | .wrTrigSource v => Sys2Proof.Machine.execWrTrigSource v s
  | .wrTrigDelay v => Sys2Proof.Machine.execWrTrigDelay v s
  | .wrTimerInterval v => Sys2Proof.Machine.execWrTimerInterval v s
  | .wrBurstType v => Sys2Proof.Machine.execWrBurstType v s
  | .wrBurstCount v => Sys2Proof.Machine.execWrBurstCount v s
  | .wrBurstDuration v => Sys2Proof.Machine.execWrBurstDuration v s
  | .rdOpMode => Sys2Proof.Machine.execRdOpMode s
  | .rdCtrlMode => Sys2Proof.Machine.execRdCtrlMode s
  | .rdFreq => Sys2Proof.Machine.execRdFreq s
  | .rdDeadtime => Sys2Proof.Machine.execRdDeadtime s
  | .rdMinDuty => Sys2Proof.Machine.execRdMinDuty s
  | .rdPh0Ls => Sys2Proof.Machine.execRdPh0Ls s
  | .rdPh0Hs => Sys2Proof.Machine.execRdPh0Hs s
  | .rdPh1Ls => Sys2Proof.Machine.execRdPh1Ls s
  | .rdPh1Hs => Sys2Proof.Machine.execRdPh1Hs s
  | .rdPh2Ls => Sys2Proof.Machine.execRdPh2Ls s
  | .rdPh2Hs => Sys2Proof.Machine.execRdPh2Hs s
  | .rdDuty0 => Sys2Proof.Machine.execRdDuty0 s
  | .rdDuty1 => Sys2Proof.Machine.execRdDuty1 s
  | .rdDuty2 => Sys2Proof.Machine.execRdDuty2 s
  | .rdModIndex => Sys2Proof.Machine.execRdModIndex s
  | .rdAngle => Sys2Proof.Machine.execRdAngle s
  | .rdSpeed => Sys2Proof.Machine.execRdSpeed s
  | .rdTrigSource => Sys2Proof.Machine.execRdTrigSource s
  | .rdTrigDelay => Sys2Proof.Machine.execRdTrigDelay s
  | .rdTimerInterval => Sys2Proof.Machine.execRdTimerInterval s
  | .rdBurstType => Sys2Proof.Machine.execRdBurstType s
  | .rdBurstCount => Sys2Proof.Machine.execRdBurstCount s
  | .rdBurstDuration => Sys2Proof.Machine.execRdBurstDuration s
  | .rdStatus => Sys2Proof.Machine.execRdStatus s
  | .trigImmediate => Sys2Proof.Machine.execTrigImmediate s
  | .trigInternalTimer => Sys2Proof.Machine.execTrigInternalTimer s
  | .trigBus => Sys2Proof.Machine.execTrigBus s
  | .abort => Sys2Proof.Machine.execAbort s
  | .rstdef => Sys2Proof.Machine.execRstdef s
  | .cycle => Sys2Proof.Machine.execCycle s
  | .poll => Sys2Proof.Machine.execPoll s
  | .dlyexp => Sys2Proof.Machine.execDlyexp s
  | .itfire => Sys2Proof.Machine.execItfire s
  | .rstdone => Sys2Proof.Machine.execRstdone s

end Sys2Proof.Machine
end

