-- ==== Sys2Proof/Machine/Step.lean ====
section
/-! DEFINITION. One step: the block serves the one operation that is next at its ports. The block fetches nothing (R29). -/

namespace Sys2Proof.Machine

/-- One operation of the total order (R14, R85). With nothing to serve only the wires fall. A host request that is no
operation is answered ILLEGAL and changes no state (R112). -/
def step (s : State) : Host.Outcome State Fault Refusal :=
  match takeNext s.rstWait s.sched with
  | none => .next s.clearWires
  | some (.event e, pending) => exec e.instr (s.served pending)
  | some (.host c, pending) =>
    match hostInstr c with
    | some i => exec i (s.servedHost c pending)
    | none => .next ((s.servedHost c pending).fail .illegal)

/-- The state with one raw word presented at its port before everything pending (log entry 1). -/
def State.withFetchWord (s : State) (nbits w : Nat) : State := s.present nbits w

end Sys2Proof.Machine
end

