-- ==== Sys2Proof/Machine/Run.lean ====
section
/-! DEFINITION. Runs: the finite sequences of operations from the reset state (R18, R380). -/

namespace Sys2Proof.Machine

/-- The state after power-on with what the agents present from then on: any list of occasions, since nothing says when
events arrive, how many arrive, or that any arrives (R18). -/
def State.powerOn (p : Params) (presented : List Occasion) : State := { State.resetWith p with sched := presented }

/-- `k` steps. A run has no last state: the engine is "terminal-free; cycles forever" (R18). -/
def runSteps : Nat → State → Out
  | 0, s => .next s
  | k + 1, s =>
    match step s with
    | .next t => runSteps k t
    | .fault f => .fault f
    | .refused r => .refused r

/-- A run: the operations that the first `k` steps after power-on serve, of those presented (R18). -/
def run (p : Params) (presented : List Occasion) (k : Nat) : Out := runSteps k (State.powerOn p presented)

/-- A state that some run reaches. -/
def Reachable (p : Params) (t : State) : Prop := ∃ presented k, run p presented k = .next t

end Sys2Proof.Machine
end

