-- ==== Sys2Proof/Safety.lean ====
section
/-! DEFINITION. What counts as a legal state (R64 with the range rules of section 5 of 10_state.md), the bounds on the
compare levels (R252), the comparator convention GK2, and the vocabulary in which the statements speak. -/

namespace Sys2Proof.Machine

/-- The StaticConfig registers are legal (R43 to R46, R64 items 3, 4 and 6). -/
structure StaticLegal (p : Params) (c : StaticConfig) : Prop where
  freqLegal        : legalF p.clkHz c.freq.toNat = true
  marginBelowHalf  : inv4 c.freq.toNat c.deadtime.toNat c.minDuty.toNat = true
  minDutyRange     : c.minDuty.toNat ≤ 32767
  gpioExists       : ∀ sl, (c.ph.get sl).gpio.toNat < p.numGpio
  channelsDistinct : ∀ a b, a ≠ b → chanOf p (c.ph.get a).gpio ≠ chanOf p (c.ph.get b).gpio
  onePhaseDirect   : c.opMode = .ph1 → c.ctrlMode = .directDuty

/-- The RuntimeParams registers are legal (R47, R48, R49, R51, R64 item 5). -/
structure RuntimeLegal (c : StaticConfig) (r : RuntimeParams) : Prop where
  dutyRange     : ∀ k, (r.duty.get k).toNat ≤ 65536
  modIndexRange : r.modIndex.toNat ≤ 65536
  angleRange    : r.angle.toNat < 360000
  speedBound    : inv5 r.speed.toInt c.freq.toNat = true

/-- While RUNNING, the levels of every active phase differ by exactly the total deadtime (R249, R253 (a)). -/
def State.levelsApart (s : State) : Prop :=
  s.eng.run = .running → ∀ k, phaseActive s.phases k = true →
    (s.ch.get k.highSlot).level.toInt - (s.ch.get k.lowSlot).level.toInt = (s.drv.dtTotal.toNat : Int)

/-- A legal state: R64 with what it needs to be kept by every step. -/
structure Legal (s : State) : Prop where
  params        : s.params.wf = true
  static        : StaticLegal s.params s.stat
  runtime       : RuntimeLegal s.stat s.runtime
  /-- R24: a duty numerator -/
  dutyActive    : ∀ k, (s.eng.dutyActive.get k).toNat ≤ 2 ^ 33
  /-- R64 item 8 -/
  runningFlag   : s.running = true → s.eng.run = .running
  /-- R64 item 9 -/
  irqEnabled    : s.irqEn = true ↔ s.eng.run = .running
  /-- R64 item 9: active slots are enabled while RUNNING, and no other slot ever is -/
  enabledSlots  : ∀ sl, (s.ch.get sl).enabled = true ↔ (s.eng.run = .running ∧ slotActive s.phases sl = true)
  /-- R64 item 7 -/
  runningMode   : s.eng.run = .running → s.stat.opMode ≠ .off ∧ s.hwDirty = false
  /-- R64 item 7: unless `hw_dirty` is set, running `RECONFIG` again would change nothing -/
  compiled      : s.hwDirty = false → s.stat.opMode ≠ .off → s.reconfigured = s
  levelsApart   : s.levelsApart
  /-- R180 -/
  timerArmed    : s.itimerArmed = true ↔ s.trigger.source = .internalTimer

/-- While RUNNING, the low-side level of an active phase is at least -1 and its high-side level at most the counter
period (R252). -/
def LevelsBounded (s : State) : Prop :=
  s.eng.run = .running → ∀ k, phaseActive s.phases k = true →
    -1 ≤ (s.ch.get k.lowSlot).level.toInt ∧
    (s.ch.get k.highSlot).level.toInt ≤ (s.drv.maxCounter.toNat : Int)

/-- The pin of a channel under the comparator convention GK2: the raw output is active while `counter < level`, read as
a signed level, and the programmed polarity applies after it (R237, R249; PRESUMED, log entry 13). -/
def pinActive (c : Channel) (counter : Nat) : Bool := (decide ((counter : Int) < c.level.toInt)) ^^ c.polInv

/-- `n` events `CYCLE` with nothing in between. -/
def runCycles : Nat → State → Out
  | 0, s => .next s
  | n + 1, s =>
    match exec .cycle s with
    | .next t => runCycles n t
    | .fault f => .fault f
    | .refused r => .refused r

/-- The operations on the command port, the host's (R17, R100): every `WR`, `RD`, `TRIG`, `ABORT` and `RSTDEF`. -/
def fromHost (i : Instr) : Bool :=
  match encode i with
  | .cmd _ => true
  | .ev _ => false

/-- The host requests pending, oldest first. -/
def pendingRequests (sched : List Occasion) : List HostCmd := sched.filterMap fun o => o.cmd

/-- The occasion presents an operation of this source, and it may be served now: a host request not while the host waits
(U9; log entry 7). -/
def servable (hostWaits : Bool) (o : Occasion) : Source → Prop
  | .host => hostWaits = false ∧ o.cmd ≠ none
  | .ev e => o.ev.getLsbD e.bit = true

/-- `left` is what stays of the occasion once this source is served: the other operations, in the same order. -/
def leftOver (o left : Occasion) : Source → Prop
  | .host => left.cmd = none ∧ left.ev = o.ev ∧ left.arb = o.arb
  | .ev e => left.cmd = o.cmd ∧ left.arb = o.arb ∧
      ∀ f : Event, left.ev.getLsbD f.bit = (o.ev.getLsbD f.bit && decide (f ≠ e))

/-- A host request that is no operation (R112, R78): a word the decoder rejects; on the bus an access that is not one
aligned word, one to a word without a register, a store to `STATUS`, one beyond the 256 words (log entry 9). -/
def malformed (req : HostReq) : Prop :=
  (∃ w e, req = .word w ∧ decode (.cmd w) = .error e) ∨
  (∃ a bytes, req = .busWrite a bytes ∧
    (a % 4 ≠ 0 ∨ bytes.length ≠ 4 ∨ 1024 ≤ a ∨ a = 4 * 0x20 ∨ ∀ r : Reg, 4 * r.addr.toNat ≠ a)) ∨
  (∃ a size, req = .busRead a size ∧
    (a % 4 ≠ 0 ∨ size ≠ 4 ∨ 1024 ≤ a ∨ ∀ r : Reg, 4 * r.addr.toNat ≠ a))

/-- The response `(code, rdata)` on the response port (R102, R113). -/
abbrev answer (code : Nat) (rdata : Word) : Option RspWord := some (BitVec.ofNat 2 code ++ rdata)

/-- The divider of a carrier frequency as R153 writes it, on rationals: the ceiling, clamped to 1..255. -/
def ruleDivider (clk f : Nat) : Nat := min 255 (max 1 ⌈((clk * 1000 : ℕ) : ℚ) / ((f * 131068 : ℕ) : ℚ)⌉₊)

/-- The counter period as R154 writes it, on rationals: round half up. -/
def ruleMaxCounter (clk f : Nat) : Nat :=
  ⌊((clk * 1000 : ℕ) : ℚ) / ((f * 2 * ruleDivider clk f : ℕ) : ℚ) + 1 / 2⌋₊

/-- The total deadtime counts as R159 writes it, on rationals. -/
def ruleDtTotal (dt f mc : Nat) : Nat := ⌊((dt * f * mc * 2 : ℕ) : ℚ) / 10 ^ 12 + 1 / 2⌋₊

/-- `min_duty_with_deadtime` (R160), an exact rational. -/
def ruleMargin (md dt f : Nat) : ℚ := (md : ℚ) / 65536 + ((dt * f : ℕ) : ℚ) / 10 ^ 12

/-- A legal carrier frequency as R152 says it. -/
def ruleLegalFreq (clk f : Nat) : Prop :=
  1 ≤ f ∧ ⌈((clk * 1000 : ℕ) : ℚ) / ((f * 131068 : ℕ) : ℚ)⌉₊ ≤ 255 ∧ 1 ≤ ruleMaxCounter clk f

/-- The phase offset of phase k among n as R245 gives it: 180 degrees exactly, 120 degrees rounded down and its
opposite. -/
def ruleOffset (n k : Nat) : Nat :=
  if n = 2 ∧ k = 1 then 2 ^ 31
  else if n = 3 ∧ k = 1 then 2 ^ 32 / 3
  else if n = 3 ∧ k = 2 then 2 ^ 32 - 2 ^ 32 / 3
  else 0

/-- `d` is the modulated duty of phase k among n at an accumulator value, as R243 gives it: 0.5 + 0.5 * M / 65536 *
sine / `ONE`, in units of 2^-33. With the decided `ONE` that is an integer; with a larger one `d` is one of the two
neighbours, whichever (log entry 18). -/
def ruleModulated (p : Params) (n m : Nat) (acc : BitVec 32) (k : Phase) (d : BitVec 34) : Prop :=
  ∃ swing : Int,
    |(swing : ℚ) - m / 65536 * (sine p (BitVec.ofNat 32 (acc.toNat + ruleOffset n k.idx)) / p.one) * 2 ^ 32| < 1 ∧
    d = BitVec.ofInt 34 (2 ^ 32 + swing)

/-- The compare level of a side from a duty numerator, as R247 to R249 give it. -/
def ruleLevel (drv : Derived) (d : Nat) (side : Side) : BitVec 18 :=
  let dc := if d < drv.clipLo.toNat then drv.clipLo.toNat else if drv.clipHi.toNat < d then drv.clipHi.toNat else d
  let counts : Int := (dc * drv.maxCounter.toNat / 2 ^ 33 : ℕ)
  match side with
  | .low => BitVec.ofInt 18 (counts - drv.dtLow.toNat)
  | .high => BitVec.ofInt 18 (counts + drv.dtHigh.toNat)

/-- Steps 4 and 5 of the handler, between the state before and the state after: each active slot's level comes from the
duty just computed, every other field of the records is as before. -/
def levelsFollow (s t : State) : Prop :=
  ∀ sl : Slot,
    t.ch.get sl =
      if slotActive s.phases sl then
        { s.ch.get sl with level := ruleLevel s.drv (t.eng.dutyActive.get sl.phase).toNat sl.side }
      else s.ch.get sl

/-- The burst policy says stop, as R188 gives it. -/
def ruleBurstEnds (s : State) : Prop :=
  (s.burst.kind = .ncycles ∧ s.burst.count.toNat ≤ s.eng.burstCycles.toNat) ∨
  (s.burst.kind = .duration ∧ s.eng.burstTimeout.toNat ≤ s.eng.burstTicks.toNat)

/-- The trigger condition of a start (R212): a trigger is pending, or the source is IMMEDIATE. -/
def ruleTriggered (s : State) : Prop := s.trigPending = true ∨ s.trigger.source = .immediate

/-- Step 6 as R250 gives it. -/
def counterAdvances (s t : State) : Prop :=
  (t.eng.burstCycles = if s.burst.kind = .ncycles then s.eng.burstCycles + 1 else s.eng.burstCycles) ∧
  (t.eng.burstTicks =
    if s.burst.kind = .duration then s.eng.burstTicks + s.eng.ticksPerCycle.setWidth 64 else s.eng.burstTicks)

/-- `RECONFIG` from `s` to `u`, on rationals as R153 to R162 write it, with `hw_dirty` cleared (R164, R210): the
StaticConfig is compiled and the active slots are programmed. A value that does not fit its register is kept modulo the
register's width (log entry 8). -/
structure Compiled (s u : State) : Prop where
  /-- nothing else changes -/
  frame : u = { s with drv := u.drv, eng := { s.eng with ticksPerCycle := u.eng.ticksPerCycle }, ch := u.ch,
                       irqChan := u.irqChan, hwDirty := false }
  divider : u.drv.divider = BitVec.ofNat 8 (ruleDivider s.params.clkHz s.stat.freq.toNat)
  maxCounter : u.drv.maxCounter = BitVec.ofNat 17 (ruleMaxCounter s.params.clkHz s.stat.freq.toNat)
  ticksPerCycle : u.eng.ticksPerCycle =
    BitVec.ofNat 32
      (2 * ruleDivider s.params.clkHz s.stat.freq.toNat * ruleMaxCounter s.params.clkHz s.stat.freq.toNat)
  deadtime :
    let dt := ruleDtTotal s.stat.deadtime.toNat s.stat.freq.toNat (ruleMaxCounter s.params.clkHz s.stat.freq.toNat)
    u.drv.dtTotal = BitVec.ofNat 32 dt ∧
    u.drv.dtLow = BitVec.ofNat 32 (dt / 2) ∧
    u.drv.dtHigh = BitVec.ofNat 32 ((dt + 1) / 2)
  clip :
    let lo := ⌈ruleMargin s.stat.minDuty.toNat s.stat.deadtime.toNat s.stat.freq.toNat * 2 ^ 33⌉₊
    u.drv.clipLo = BitVec.ofNat 34 lo ∧ u.drv.clipHi = BitVec.ofInt 34 (2 ^ 33 - lo)
  enableMask : ∀ b : Nat, u.drv.enableMask.testBit b = true ↔
    ∃ sl : Slot, sl.phase.idx < s.stat.opMode.code ∧ (s.stat.ph.get sl).gpio.toNat % s.params.chRepeat = b
  irqChan : 1 ≤ s.stat.opMode.code →
    u.irqChan = s.stat.ph.l0.gpio.toNat % s.params.chRepeat ∧ u.drv.irqChan = s.stat.ph.l0.gpio.toNat % s.params.chRepeat
  irqChanOff : s.stat.opMode.code = 0 → u.irqChan = s.irqChan ∧ u.drv.irqChan = s.drv.irqChan
  activeSlots : ∀ sl : Slot, sl.phase.idx < s.stat.opMode.code →
    u.drv.chan.get sl = (s.stat.ph.get sl).gpio.toNat % s.params.chRepeat ∧
    u.ch.get sl =
      { s.ch.get sl with
        chan   := (s.stat.ph.get sl).gpio.toNat % s.params.chRepeat
        center := true
        div    := BitVec.ofNat 8 (ruleDivider s.params.clkHz s.stat.freq.toNat)
        wrap   := BitVec.ofNat 17 (ruleMaxCounter s.params.clkHz s.stat.freq.toNat)
        polInv := if sl.side = .low then (s.stat.ph.get sl).inv else !(s.stat.ph.get sl).inv }
  otherSlots : ∀ sl : Slot, s.stat.opMode.code ≤ sl.phase.idx →
    u.drv.chan.get sl = s.drv.chan.get sl ∧ u.ch.get sl = s.ch.get sl

/-- The start from `u` to `t` (R214, R217, R218): the burst counters and the timeout, the priming pass from the present
RuntimeParams whatever `reload` holds (R240 to R249), the levels from the derived parameters of `u`, the active slots
enabled. A value that does not fit its register is kept modulo the register's width (log entry 8). -/
structure Started (u t : State) : Prop where
  /-- nothing else changes -/
  frame : t = { u with eng := { t.eng with ticksPerCycle := u.eng.ticksPerCycle }, ch := t.ch, trigPending := false,
                       running := true, reload := false, irqEn := true }
  run : t.eng.run = .running
  counters : t.eng.burstCycles = 0 ∧ t.eng.burstTicks = 0
  timeout : t.eng.burstTimeout =
    BitVec.ofNat 64 ⌈((u.burst.duration.toNat * u.params.clkHz : ℕ) : ℚ) / 10 ^ 6⌉₊
  direct : u.stat.ctrlMode = .directDuty →
    t.eng.phaseAcc = 0 ∧ t.eng.phaseDelta = u.eng.phaseDelta ∧
    ∀ k : Phase, k.idx < u.stat.opMode.code →
      t.eng.dutyActive.get k = BitVec.ofNat 34 ((u.runtime.duty.get k).toNat * 2 ^ 17)
  angle : u.stat.ctrlMode = .modAngle →
    t.eng.phaseAcc = BitVec.ofNat 32 (u.runtime.angle.toNat * 2 ^ 32 / 360000) ∧ t.eng.phaseDelta = u.eng.phaseDelta
  speed : u.stat.ctrlMode = .modSpeed →
    t.eng.phaseDelta = BitVec.ofInt 32 (u.runtime.speed.toInt.sign *
      (u.runtime.speed.toInt.natAbs * 2 ^ 32 / u.stat.freq.toNat : ℕ)) ∧
    t.eng.phaseAcc = t.eng.phaseDelta
  modulated : u.stat.ctrlMode ≠ .directDuty → ∀ k : Phase, k.idx < u.stat.opMode.code →
    ruleModulated u.params u.stat.opMode.code u.runtime.modIndex.toNat t.eng.phaseAcc k (t.eng.dutyActive.get k)
  otherDuties : ∀ k : Phase, u.stat.opMode.code ≤ k.idx → t.eng.dutyActive.get k = u.eng.dutyActive.get k
  activeSlots : ∀ sl : Slot, sl.phase.idx < u.stat.opMode.code →
    t.ch.get sl =
      { u.ch.get sl with
        level   := ruleLevel u.drv (t.eng.dutyActive.get sl.phase).toNat sl.side
        enabled := true }
  otherSlots : ∀ sl : Slot, u.stat.opMode.code ≤ sl.phase.idx → t.ch.get sl = u.ch.get sl

end Sys2Proof.Machine
end

