-- ==== Sys2Proof/Certificates/Slice0/Obligations.lean ====
section
/-! DEFINITION. The statements for the provers. Each docstring names the rule of spec/ the statement formalises. -/

open Sys2Proof Sys2Proof.Machine

/-! ### Encodings -/

/-- Decoding the word of an operation gives the operation back, with every operand (R104 to R109). -/
def Obligations.EncodeThenDecodeIsIdentity : Prop := ∀ i : Instr, decode (encode i) = .ok i

/-- R119: a command word is decoded to an operation exactly if a row of the table matches it, and to that row's
operation; no two rows match one word; an event word is one operation per set bit. -/
def Obligations.DecoderPerformsTheMatchingRow : Prop :=
  (∀ (w : CmdWord) (i : Instr),
    decodeCmd w = .ok i ↔ ∃ r ∈ cmdRows, r.hits w ∧ r.instr (w.setWidth 32) = i) ∧
  cmdRows.length = 52 ∧
  cmdRows.Pairwise (fun a b => ∀ w, ¬ (a.hits w ∧ b.hits w)) ∧
  (∀ (w : EvWord) (e : Event), e ∈ strobes w ↔ w.getLsbD e.bit = true)

/-- R112: what the decoder of the command port rejects is exactly the list of that rule. -/
def Obligations.RejectedWordsAreTheIllegalOnes : Prop :=
  ∀ w : CmdWord,
    (∃ e, decodeCmd w = .error e) ↔
      ((w.extractLsb' 40 4 = 0 ∨ 6 ≤ (w.extractLsb' 40 4).toNat) ∨
       ((w.extractLsb' 40 4 = 1 ∨ w.extractLsb' 40 4 = 2) ∧ ∀ r : Reg, r.addr ≠ w.extractLsb' 32 8) ∨
       (w.extractLsb' 40 4 = 1 ∧ w.extractLsb' 32 8 = 0x20) ∨
       (w.extractLsb' 40 4 = 2 ∧ w.extractLsb' 0 32 ≠ 0) ∨
       (w.extractLsb' 40 4 = 3 ∧
         (w.extractLsb' 32 8 ≠ 0 ∨ w.extractLsb' 2 30 ≠ 0 ∨ w.extractLsb' 0 2 = 3)) ∨
       ((w.extractLsb' 40 4 = 4 ∨ w.extractLsb' 40 4 = 5) ∧
         (w.extractLsb' 32 8 ≠ 0 ∨ w.extractLsb' 0 32 ≠ 0)))

/-- Words written out from R101 and R104 to R109 decode to the operations they stand for. -/
def Obligations.SpecWordsDecode : Prop :=
  decodeTableWord 48 0x10000000003 = some (.wrOpMode 3) ∧
  decodeTableWord 48 0x10900000116 = some (.wrPh0Hs 0x116) ∧
  decodeTableWord 48 0x114FFFEA070 = some (.wrAngle (-90000)) ∧
  decodeTableWord 48 0x21800000000 = some .rdTrigSource ∧
  decodeTableWord 48 0x30000000002 = some .trigBus ∧
  decodeTableWord 48 0x40000000000 = some .abort ∧
  decodeTableWord 48 0x50000000000 = some .rstdef ∧
  decodeTableWord 8 0x10 = some .rstdone ∧
  decodeTableWord 48 0x20200000001 = none

/-! ### The step -/

/-- A step runs the presented command: an occasion with just a host request, a command word or a byte access that stands
for one (R75), whose word decodes to `i`, makes the step `exec i`. The operation is R100's and R119's; that requests stand
in a list, that `out_en` is sampled into a field with the request, that the response and the counter-reset pulses of the
operation before are over, and the byte access as a second form of request are the model's (log entries 1, 5, 6 and 9). -/
def Obligations.StepRunsThePresentedCommand : Prop :=
  ∀ (s : State) (req : HostReq) (w : CmdWord) (oe : Bool) (arb : List Source) (rest : List Occasion) (i : Instr),
    s.rstWait = false →
    s.sched = { cmd := some { req := req, outEn := oe }, ev := 0, arb := arb } :: rest →
    hostReqWord req = some w →
    decode (.cmd w) = .ok i →
    step s = exec i
      { s with
        sched := rest
        outEn := oe
        rsp   := none
        ch    := PerSlot.tabulate fun sl => { s.ch.get sl with ctrReset := false } }

/-- A step runs the presented event: an occasion with just one strobe makes the step that event's operation (R109, R119),
also while the host waits. The list of occasions and that the wires of the operation before are over are the model's (log
entries 1 and 6). -/
def Obligations.StepRunsThePresentedEvent : Prop :=
  ∀ (s : State) (w : EvWord) (arb : List Source) (rest : List Occasion) (i : Instr),
    s.sched = { cmd := none, ev := w, arb := arb } :: rest →
    decode (.ev w) = .ok i →
    step s = exec i
      { s with
        sched := rest
        rsp   := none
        ch    := PerSlot.tabulate fun sl => { s.ch.get sl with ctrReset := false } }

/-- R349, R109: what a step serves, whatever is presented. The oldest occasion with something that may be served now is
taken, and of its operations the one that stands first in its order `ARB` among those that may; the others stay pending in
the same order, so that the next step applies the rule to them. An event is executed also beside or behind a host request
that waits for `RSTDONE`; a host request is executed, or answered ILLEGAL if it is no operation (R112). That requests stand
in a list of occasions, oldest first, that `ARB` is a list of each occasion, completed by a fixed order of the sources it
does not name, that a waiting request is passed over and stays in its place, that `out_en` is sampled with the request, that
the wires of the operation before are over, and the byte accesses are the model's (log entries 1, 2, 7, 5, 6 and 9). -/
def Obligations.TheFirstInOrderIsServedFirst : Prop :=
  ∀ (s : State) (older rest : List Occasion) (o : Occasion) (before after : List Source) (src : Source),
    s.sched = older ++ o :: rest →
    (∀ p ∈ older, ∀ x : Source, ¬ servable s.rstWait p x) →
    o.arb ++ [.host, .ev .cycle, .ev .poll, .ev .dlyexp, .ev .itfire, .ev .rstdone] = before ++ src :: after →
    servable s.rstWait o src →
    (∀ x ∈ before, ¬ servable s.rstWait o x) →
    ∃ left : Occasion, leftOver o left src ∧
      let u :=
        { s with
          sched := older.filter (fun p => p.cmd.isSome) ++ if left.cmd = none ∧ left.ev = 0 then rest else left :: rest
          rsp   := none
          ch    := PerSlot.tabulate fun sl => { s.ch.get sl with ctrReset := false } }
      (∀ e : Event, src = .ev e → step s = exec e.instr u) ∧
      (∀ (req : HostReq) (oe : Bool), src = .host → o.cmd = some { req := req, outEn := oe } →
        (∀ (w : CmdWord) (i : Instr), hostReqWord req = some w → decode (.cmd w) = .ok i →
          step s = exec i { u with outEn := oe }) ∧
        (malformed req → step s = .next { u with outEn := oe, rsp := answer 3 0 }))

/-- R112, R113, and R78 for the byte-addressed placement: a host request that is no operation is answered ILLEGAL with
`rdata` 0; no state changes. On the bus that is an access that is not one aligned word, one to a word without a register,
a store to `STATUS`, and one beyond the 256 words. The request's byte form, the last case, the list of occasions, the
sampled `out_en` and that the wires of the operation before are over are the model's (log entries 9, 1, 5 and 6). -/
def Obligations.MalformedRequestsAnswerIllegal : Prop :=
  ∀ (s : State) (req : HostReq) (oe : Bool) (arb : List Source) (rest : List Occasion),
    s.rstWait = false →
    s.sched = { cmd := some { req := req, outEn := oe }, ev := 0, arb := arb } :: rest →
    malformed req →
    step s = .next
      { s with
        sched := rest
        outEn := oe
        rsp   := answer 3 0
        ch    := PerSlot.tabulate fun sl => { s.ch.get sl with ctrReset := false } }

/-- R75: on the byte-addressed placement, word address `a` is at byte address `4 * a` and the word is little-endian. That
the access is served as the `WR` or `RD` of that word address, by the same step, is read from it (DEDUCED, log entry 9). -/
def Obligations.ByteBusAccessesAreWordCommands : Prop :=
  ∀ (a : BitVec 8) (v : Word),
    let store := HostReq.busWrite (4 * a.toNat)
      [v.extractLsb' 0 8, v.extractLsb' 8 8, v.extractLsb' 16 8, v.extractLsb' 24 8]
    let load := HostReq.busRead (4 * a.toNat) 4
    let wr : CmdWord := (1 : BitVec 4) ++ a ++ v
    let rd : CmdWord := (2 : BitVec 4) ++ a ++ (0 : Word)
    hostReqWord store = some wr ∧ hostReqWord load = some rd ∧
    ∀ (s : State) (oe : Bool) (arb : List Source) (rest : List Occasion), s.rstWait = false →
      step { s with sched := { cmd := some { req := store, outEn := oe }, ev := 0, arb := arb } :: rest } =
        step { s with sched := { cmd := some { req := .word wr, outEn := oe }, ev := 0, arb := arb } :: rest } ∧
      step { s with sched := { cmd := some { req := load, outEn := oe }, ev := 0, arb := arb } :: rest } =
        step { s with sched := { cmd := some { req := .word rd, outEn := oe }, ev := 0, arb := arb } :: rest }

/-- With nothing presented that may be served now nothing happens; only the wires of the operation before fall. The
model's own convention for a time at which no agent presents an operation, or only a host that waits (R18; log entries 1,
6 and 7). -/
def Obligations.NothingPresentedChangesNothing : Prop :=
  ∀ s : State, (∀ o ∈ s.sched, ∀ x : Source, ¬ servable s.rstWait o x) →
    step s = .next
      { s with
        rsp := none
        ch  := PerSlot.tabulate fun sl => { s.ch.get sl with ctrReset := false } }

/-- While Unit A waits in `reset_to_defaults()` no host request is served: it stays pending. R61, R293 and U9 say only
that the host issues none then; that step passes over one and keeps it is the model's choice (log entry 7). -/
def Obligations.TheWaitingHostIsNotServed : Prop :=
  ∀ s t : State, s.rstWait = true → step s = .next t → pendingRequests t.sched = pendingRequests s.sched

/-- Program order of the host (R85 (a), R349 (a)): a step takes at most one host request, and only the oldest. -/
def Obligations.HostRequestsAreServedInOrder : Prop :=
  ∀ s t : State, step s = .next t →
    pendingRequests t.sched = pendingRequests s.sched ∨
    ∃ c, pendingRequests s.sched = c :: pendingRequests t.sched

/-- No operation writes the parameters (R8, R17), and what the agents have presented is consumed by the step alone. -/
def Obligations.OperationsKeepParametersAndPorts : Prop :=
  ∀ (i : Instr) (s t : State), exec i s = .next t →
    t.params = s.params ∧ t.sched = s.sched ∧ t.outEn = s.outEn

/-! ### Reset -/

/-- The values R63 states, for every parameter record: nothing is said of the fields it leaves unspecified. -/
def Obligations.ResetLeavesTheStatedValues : Prop :=
  ∀ p : Params,
    let s := State.resetWith p
    s.eng.run = .idle ∧
    s.running = false ∧ s.hwDirty = false ∧ s.reload = false ∧ s.trigPending = false ∧
    s.delayPending = false ∧ s.itimerArmed = false ∧ s.rstWait = false ∧
    s.eng.phaseAcc = 0 ∧ s.eng.phaseDelta = 0 ∧
    s.eng.burstCycles = 0 ∧ s.eng.burstTicks = 0 ∧ s.eng.burstTimeout = 0 ∧
    s.stat = { opMode := .off, ctrlMode := .directDuty, freq := p.defFreq, deadtime := p.defDeadtime,
               minDuty := p.defMinDuty, ph := p.defPh } ∧
    s.runtime = { duty := p.defDuty, modIndex := p.defModIndex, angle := p.defAngle, speed := p.defSpeed } ∧
    s.trigger = { source := .bus, delay := p.defTrigDelay, interval := p.defTimerInterval } ∧
    s.burst = { kind := .continuous, count := p.defBurstCount, duration := p.defBurstDuration } ∧
    s.readReg .status = 0 ∧
    (∀ sl, (s.ch.get sl).enabled = false) ∧ s.irqEn = false

/-- The state after reset is legal for every legal parameter record, and the example set P0 is one. -/
def Obligations.ResetStateIsLegal : Prop :=
  (∀ p : Params, p.wf = true → Legal (State.resetWith p)) ∧ Params.p0.wf = true ∧ Legal State.reset

/-- R381: after reset no event other than `POLL` is enabled, and the first `POLL` changes nothing. -/
def Obligations.FirstEventsAfterResetChangeNothing : Prop :=
  ∀ (p : Params) (e : Event), exec e.instr (State.resetWith p) = .next (State.resetWith p)

/-! ### Setters -/

/-- R272: `WR OP_MODE`. -/
def Obligations.WrOpModeStoresOrRefuses : Prop :=
  ∀ (v : Word) (s : State), s.rstWait = false →
    (s.eng.run = .running → exec (.wrOpMode v) s = .next { s with rsp := answer 1 0 }) ∧
    (s.eng.run = .idle → 3 < v.toNat → exec (.wrOpMode v) s = .next { s with rsp := answer 2 0 }) ∧
    (s.eng.run = .idle → v.toNat = 1 → s.stat.ctrlMode ≠ .directDuty →
      exec (.wrOpMode v) s = .next { s with rsp := answer 1 0 }) ∧
    (s.eng.run = .idle → ∀ m : OpMode, v.toNat = m.code → (v.toNat = 1 → s.stat.ctrlMode = .directDuty) →
      exec (.wrOpMode v) s =
        .next { s with stat := { s.stat with opMode := m }, hwDirty := true, rsp := answer 0 0 })

/-- R273: `WR CTRL_MODE`. -/
def Obligations.WrCtrlModeStoresOrRefuses : Prop :=
  ∀ (v : Word) (s : State), s.rstWait = false →
    (s.eng.run = .running → exec (.wrCtrlMode v) s = .next { s with rsp := answer 1 0 }) ∧
    (s.eng.run = .idle → 2 < v.toNat → exec (.wrCtrlMode v) s = .next { s with rsp := answer 2 0 }) ∧
    (s.eng.run = .idle → v.toNat ≤ 2 → v.toNat ≠ 0 → s.stat.opMode = .ph1 →
      exec (.wrCtrlMode v) s = .next { s with rsp := answer 1 0 }) ∧
    (s.eng.run = .idle → ∀ m : CtrlMode, v.toNat = m.code → (s.stat.opMode = .ph1 → v.toNat = 0) →
      exec (.wrCtrlMode v) s =
        .next { s with stat := { s.stat with ctrlMode := m }, hwDirty := true, rsp := answer 0 0 })

/-- R274: `WR FREQ`, with R152 as it is written (on rationals), invariant 4 and invariant 5. -/
def Obligations.WrFreqStoresOrRefuses : Prop :=
  ∀ (v : Word) (s : State), s.rstWait = false →
    let legal := ruleLegalFreq s.params.clkHz v.toNat
    let margin := 2 * s.stat.minDuty.toNat * 10 ^ 12 + 2 * 65536 * s.stat.deadtime.toNat * v.toNat < 65536 * 10 ^ 12
    let slow := 2 * |s.runtime.speed.toInt| ≤ (v.toNat : Int)
    (s.eng.run = .running → exec (.wrFreq v) s = .next { s with rsp := answer 1 0 }) ∧
    (s.eng.run = .idle → ¬ legal → exec (.wrFreq v) s = .next { s with rsp := answer 2 0 }) ∧
    (s.eng.run = .idle → legal → ¬ margin → exec (.wrFreq v) s = .next { s with rsp := answer 2 0 }) ∧
    (s.eng.run = .idle → legal → margin → ¬ slow → exec (.wrFreq v) s = .next { s with rsp := answer 1 0 }) ∧
    (s.eng.run = .idle → legal → margin → slow →
      exec (.wrFreq v) s =
        .next { s with stat := { s.stat with freq := v }, hwDirty := true, rsp := answer 0 0 })

/-- R275: `WR DEADTIME`. -/
def Obligations.WrDeadtimeStoresOrRefuses : Prop :=
  ∀ (v : Word) (s : State), s.rstWait = false →
    let margin := 2 * s.stat.minDuty.toNat * 10 ^ 12 + 2 * 65536 * v.toNat * s.stat.freq.toNat < 65536 * 10 ^ 12
    (s.eng.run = .running → exec (.wrDeadtime v) s = .next { s with rsp := answer 1 0 }) ∧
    (s.eng.run = .idle → ¬ margin → exec (.wrDeadtime v) s = .next { s with rsp := answer 2 0 }) ∧
    (s.eng.run = .idle → margin →
      exec (.wrDeadtime v) s =
        .next { s with stat := { s.stat with deadtime := v }, hwDirty := true, rsp := answer 0 0 })

/-- R276: `WR MIN_DUTY`. -/
def Obligations.WrMinDutyStoresOrRefuses : Prop :=
  ∀ (v : Word) (s : State), s.rstWait = false →
    let margin :=
      2 * v.toNat * 10 ^ 12 + 2 * 65536 * s.stat.deadtime.toNat * s.stat.freq.toNat < 65536 * 10 ^ 12
    (s.eng.run = .running → exec (.wrMinDuty v) s = .next { s with rsp := answer 1 0 }) ∧
    (s.eng.run = .idle → 32767 < v.toNat → exec (.wrMinDuty v) s = .next { s with rsp := answer 2 0 }) ∧
    (s.eng.run = .idle → v.toNat ≤ 32767 → ¬ margin →
      exec (.wrMinDuty v) s = .next { s with rsp := answer 2 0 }) ∧
    (s.eng.run = .idle → v.toNat ≤ 32767 → margin →
      exec (.wrMinDuty v) s =
        .next { s with stat := { s.stat with minDuty := v }, hwDirty := true, rsp := answer 0 0 })

/-- R277: `WR PHk_s`, all six slots. -/
def Obligations.WrSlotStoresOrRefuses : Prop :=
  ∀ (i : Instr) (sl : Slot) (v : Word) (s : State), s.rstWait = false →
    (i, sl) ∈ [(Instr.wrPh0Ls v, Slot.l0), (.wrPh0Hs v, .h0), (.wrPh1Ls v, .l1),
               (.wrPh1Hs v, .h1), (.wrPh2Ls v, .l2), (.wrPh2Hs v, .h2)] →
    let gpio := v.toNat % 256
    let taken := ∃ other, other ≠ sl ∧
      (s.stat.ph.get other).gpio.toNat % s.params.chRepeat = gpio % s.params.chRepeat
    (s.eng.run = .running → exec i s = .next { s with rsp := answer 1 0 }) ∧
    (s.eng.run = .idle → s.outEn = true → exec i s = .next { s with rsp := answer 1 0 }) ∧
    (s.eng.run = .idle → s.outEn = false → 2 ^ 10 ≤ v.toNat → exec i s = .next { s with rsp := answer 2 0 }) ∧
    (s.eng.run = .idle → s.outEn = false → v.toNat < 2 ^ 10 → s.params.numGpio ≤ gpio →
      exec i s = .next { s with rsp := answer 2 0 }) ∧
    (s.eng.run = .idle → s.outEn = false → v.toNat < 2 ^ 10 → gpio < s.params.numGpio → taken →
      exec i s = .next { s with rsp := answer 1 0 }) ∧
    (s.eng.run = .idle → s.outEn = false → v.toNat < 2 ^ 10 → gpio < s.params.numGpio → ¬ taken →
      ∃ ph : PerSlot SlotCfg,
        (ph.get sl).gpio.toNat = gpio ∧ (ph.get sl).inv = v.getLsbD 8 ∧ (ph.get sl).idle = v.getLsbD 9 ∧
        (∀ other, other ≠ sl → ph.get other = s.stat.ph.get other) ∧
        exec i s = .next { s with stat := { s.stat with ph := ph }, hwDirty := true, rsp := answer 0 0 })

/-- R278 and R279: `WR DUTYk` and `WR MOD_INDEX`. -/
def Obligations.WrDutyAndModIndexStoreOrRefuse : Prop :=
  ∀ (v : Word) (s : State), s.rstWait = false →
    (65536 < v.toNat → ∀ i ∈ [Instr.wrDuty0 v, .wrDuty1 v, .wrDuty2 v, .wrModIndex v],
      exec i s = .next { s with rsp := answer 2 0 }) ∧
    (v.toNat ≤ 65536 →
      exec (.wrDuty0 v) s = .next
        { s with runtime := { s.runtime with duty := { s.runtime.duty with v0 := v } }, reload := true, rsp := answer 0 0 } ∧
      exec (.wrDuty1 v) s = .next
        { s with runtime := { s.runtime with duty := { s.runtime.duty with v1 := v } }, reload := true, rsp := answer 0 0 } ∧
      exec (.wrDuty2 v) s = .next
        { s with runtime := { s.runtime with duty := { s.runtime.duty with v2 := v } }, reload := true, rsp := answer 0 0 } ∧
      exec (.wrModIndex v) s = .next
        { s with runtime := { s.runtime with modIndex := v }, reload := true, rsp := answer 0 0 })

/-- R280: `WR ANGLE` never refuses; it stores the i32 millidegrees modulo 360000. -/
def Obligations.WrAngleStoresTheWrappedAngle : Prop :=
  ∀ (v : Word) (s : State), s.rstWait = false →
    ∃ a : Word, a.toNat < 360000 ∧ (360000 : Int) ∣ v.toInt - a.toNat ∧
      exec (.wrAngle v) s = .next
        { s with runtime := { s.runtime with angle := a }, reload := true, rsp := answer 0 0 }

/-- R281: `WR SPEED`. -/
def Obligations.WrSpeedStoresOrRefuses : Prop :=
  ∀ (v : Word) (s : State), s.rstWait = false →
    ((s.stat.freq.toNat : Int) < 2 * |v.toInt| → exec (.wrSpeed v) s = .next { s with rsp := answer 1 0 }) ∧
    (2 * |v.toInt| ≤ (s.stat.freq.toNat : Int) →
      exec (.wrSpeed v) s = .next
        { s with runtime := { s.runtime with speed := v }, reload := true, rsp := answer 0 0 })

/-- R282 with `CONFIGURE` (R181): `WR TRIG_SOURCE`. -/
def Obligations.WrTrigSourceStoresAndConfigures : Prop :=
  ∀ (v : Word) (s : State), s.rstWait = false →
    (2 < v.toNat → exec (.wrTrigSource v) s = .next { s with rsp := answer 2 0 }) ∧
    (∀ src : TrigSource, v.toNat = src.code →
      exec (.wrTrigSource v) s = .next
        { s with
          trigger     := { s.trigger with source := src }
          itimerArmed := decide (src = .internalTimer)
          itimerUs    := if src = .internalTimer then s.trigger.interval else s.itimerUs
          rsp         := answer 0 0 })

/-- R285: `WR BURST_TYPE`. -/
def Obligations.WrBurstTypeStoresOrRefuses : Prop :=
  ∀ (v : Word) (s : State), s.rstWait = false →
    (2 < v.toNat → exec (.wrBurstType v) s = .next { s with rsp := answer 2 0 }) ∧
    (∀ b : BurstType, v.toNat = b.code →
      exec (.wrBurstType v) s = .next { s with burst := { s.burst with kind := b }, rsp := answer 0 0 })

/-- R283, R284, R286, R287: the registers without checks. -/
def Obligations.UncheckedSettersStore : Prop :=
  ∀ (v : Word) (s : State), s.rstWait = false →
    exec (.wrTrigDelay v) s = .next { s with trigger := { s.trigger with delay := v }, rsp := answer 0 0 } ∧
    exec (.wrTimerInterval v) s = .next { s with trigger := { s.trigger with interval := v }, rsp := answer 0 0 } ∧
    exec (.wrBurstCount v) s = .next { s with burst := { s.burst with count := v }, rsp := answer 0 0 } ∧
    exec (.wrBurstDuration v) s = .next { s with burst := { s.burst with duration := v }, rsp := answer 0 0 }

/-- R270: a command that answers a status other than OK changes no state at all. -/
def Obligations.RefusedCommandsChangeNothing : Prop :=
  ∀ (i : Instr) (s t : State) (code : Nat) (d : Word),
    fromHost i = true → s.rsp = none → exec i s = .next t → t.rsp = answer code d → 1 ≤ code → code ≤ 3 →
    t = { s with rsp := answer code 0 }

/-! ### The other host commands -/

/-- R290, R72: every `RD` answers OK with the register's raw value and changes nothing. -/
def Obligations.ReadsAnswerTheRawValue : Prop :=
  ∀ (i : Instr) (x : Nat) (s : State), s.rstWait = false →
    (i, x) ∈
      [(Instr.rdOpMode, s.stat.opMode.code), (.rdCtrlMode, s.stat.ctrlMode.code), (.rdFreq, s.stat.freq.toNat),
       (.rdDeadtime, s.stat.deadtime.toNat), (.rdMinDuty, s.stat.minDuty.toNat),
       (.rdPh0Ls, s.stat.ph.l0.gpio.toNat + 256 * s.stat.ph.l0.inv.toNat + 512 * s.stat.ph.l0.idle.toNat),
       (.rdPh0Hs, s.stat.ph.h0.gpio.toNat + 256 * s.stat.ph.h0.inv.toNat + 512 * s.stat.ph.h0.idle.toNat),
       (.rdPh1Ls, s.stat.ph.l1.gpio.toNat + 256 * s.stat.ph.l1.inv.toNat + 512 * s.stat.ph.l1.idle.toNat),
       (.rdPh1Hs, s.stat.ph.h1.gpio.toNat + 256 * s.stat.ph.h1.inv.toNat + 512 * s.stat.ph.h1.idle.toNat),
       (.rdPh2Ls, s.stat.ph.l2.gpio.toNat + 256 * s.stat.ph.l2.inv.toNat + 512 * s.stat.ph.l2.idle.toNat),
       (.rdPh2Hs, s.stat.ph.h2.gpio.toNat + 256 * s.stat.ph.h2.inv.toNat + 512 * s.stat.ph.h2.idle.toNat),
       (.rdDuty0, s.runtime.duty.v0.toNat), (.rdDuty1, s.runtime.duty.v1.toNat),
       (.rdDuty2, s.runtime.duty.v2.toNat), (.rdModIndex, s.runtime.modIndex.toNat),
       (.rdAngle, s.runtime.angle.toNat), (.rdSpeed, s.runtime.speed.toNat),
       (.rdTrigSource, s.trigger.source.code), (.rdTrigDelay, s.trigger.delay.toNat),
       (.rdTimerInterval, s.trigger.interval.toNat), (.rdBurstType, s.burst.kind.code),
       (.rdBurstCount, s.burst.count.toNat), (.rdBurstDuration, s.burst.duration.toNat),
       (.rdStatus, (if s.eng.run = .running then 1 else 0) + 2 * s.running.toNat)] →
    exec i s = .next { s with rsp := answer 0 (BitVec.ofNat 32 x) }

/-- R291, R183, R182: `TRIG`. On a match with no delay pending the delay is armed with the present `TRIG_DELAY`; else
nothing but the response. -/
def Obligations.TrigArmsTheDelayOnAMatch : Prop :=
  ∀ (i : Instr) (src : TrigSource) (s : State), s.rstWait = false →
    (i, src) ∈ [(Instr.trigImmediate, TrigSource.immediate), (.trigInternalTimer, .internalTimer), (.trigBus, .bus)] →
    (src = s.trigger.source → s.delayPending = false →
      exec i s = .next { s with delayPending := true, delayUs := s.trigger.delay, rsp := answer 0 0 }) ∧
    (src ≠ s.trigger.source ∨ s.delayPending = true → exec i s = .next { s with rsp := answer 0 0 })

/-- R292 and R293: `ABORT`, and the first phase of `reset_to_defaults()`. -/
def Obligations.AbortAndRstdefClearRunning : Prop :=
  ∀ s : State, s.rstWait = false →
    exec .abort s = .next { s with running := false, rsp := answer 0 0 } ∧
    exec .rstdef s = .next { s with running := false, rstWait := true }

/-- R294: `RSTDONE` while the host waits and the block is IDLE. -/
def Obligations.RstdoneRestoresTheDefaults : Prop :=
  ∀ s : State, s.rstWait = true → s.eng.run = .idle →
    exec .rstdone s = .next
      { s with
        stat        := { opMode := .off, ctrlMode := .directDuty, freq := s.params.defFreq,
                         deadtime := s.params.defDeadtime, minDuty := s.params.defMinDuty, ph := s.params.defPh }
        runtime     := { duty := s.params.defDuty, modIndex := s.params.defModIndex,
                         angle := s.params.defAngle, speed := s.params.defSpeed }
        trigger     := { source := .bus, delay := s.params.defTrigDelay, interval := s.params.defTimerInterval }
        burst       := { kind := .continuous, count := s.params.defBurstCount, duration := s.params.defBurstDuration }
        hwDirty     := true
        reload      := true
        itimerArmed := false
        rstWait     := false
        rsp         := answer 0 0 }

/-- U9: a host command executed while `rst_wait` = 1 is stuck, whichever it is. -/
def Obligations.HostCommandsAreStuckWhileWaiting : Prop :=
  ∀ (i : Instr) (s : State), fromHost i = true → s.rstWait = true → exec i s = .fault .hostStuck

/-! ### Timer events, and events that are not enabled -/

/-- R184 with R186, and R185 with R182: the two timer events while they are enabled. -/
def Obligations.TimerEventsDispatchAndArm : Prop :=
  ∀ s : State,
    (s.delayPending = true → exec .dlyexp s = .next { s with trigPending := true, delayPending := false }) ∧
    (s.itimerArmed = true → s.delayPending = false →
      exec .itfire s = .next { s with delayPending := true, delayUs := s.trigger.delay }) ∧
    (s.itimerArmed = true → s.delayPending = true → exec .itfire s = .next s)

/-- R109, U8: an event whose enabling condition is false is ignored. -/
def Obligations.DisabledEventsAreIgnored : Prop :=
  ∀ s : State,
    (s.irqEn = false → exec .cycle s = .next s) ∧
    (s.delayPending = false → exec .dlyexp s = .next s) ∧
    (s.itimerArmed = false → exec .itfire s = .next s) ∧
    (s.rstWait = false ∨ s.eng.run = .running → exec .rstdone s = .next s)

/-! ### The supervisory loop -/

/-- R210, R212: the `POLL`s that neither reconfigure nor start. -/
def Obligations.PollWithoutStart : Prop :=
  ∀ s : State,
    (s.eng.run = .running → exec .poll s = .next s) ∧
    (s.hwDirty = false → s.trigPending = false → s.trigger.source ≠ .immediate → exec .poll s = .next s) ∧
    (s.eng.run = .idle → s.hwDirty = false → s.running = true → exec .poll s = .next s) ∧
    (s.eng.run = .idle → s.hwDirty = false → s.running = false → s.trigPending = true ∨ s.trigger.source = .immediate →
      s.stat.opMode = .off → exec .poll s = .next { s with trigPending := false })

/-- R164 with R153 to R162, R210 and R211, on rationals as the rules write them: a `POLL` in IDLE with `hw_dirty` set
compiles the StaticConfig, programs the active slots and clears the flag. Without a start to follow nothing else changes;
with a trigger condition in OFF mode the trigger is dropped after it. Over states that no run reaches a value is kept modulo
its register's width, the model's choice (log entry 8). -/
def Obligations.PollCompilesTheStaticConfig : Prop :=
  ∀ s : State, s.eng.run = .idle → s.hwDirty = true → s.stat.freq ≠ 0 →
    (s.running = true ∨ ¬ ruleTriggered s → ∃ u : State, Compiled s u ∧ exec .poll s = .next u) ∧
    (s.running = false → ruleTriggered s → s.stat.opMode = .off →
      ∃ u : State, Compiled s u ∧ exec .poll s = .next { u with trigPending := false })

/-- R214 with the priming pass (R217, R218, R240 to R249): a `POLL` in IDLE with a trigger condition and a mode other than
OFF starts the waveform from the present RuntimeParams, whatever `reload` holds. With `hw_dirty` set the start runs from
the state the reconfiguration leaves, so that the levels come from the new derived parameters (R210, R211). Over states
that no run reaches a value is kept modulo its register's width, the model's choice (log entry 8); so is the neighbour
taken by a duty that a table with more than 16 amplitude bits puts between two (log entry 18). -/
def Obligations.PollStartsTheWaveform : Prop :=
  ∀ s : State, s.eng.run = .idle → s.running = false → ruleTriggered s → s.stat.opMode ≠ .off →
    (s.hwDirty = true ∨ s.stat.ctrlMode = .modSpeed → s.stat.freq ≠ 0) →
    ∃ u t : State,
      (if s.hwDirty then Compiled s u else u = s) ∧ Started u t ∧ exec .poll s = .next t

/-- U2 (R151, R254): with `FREQ` = 0 a reconfiguration stops the model, and so does a start or a reload in MOD_SPEED. -/
def Obligations.ZeroFrequencyStops : Prop :=
  ∀ s : State, s.stat.freq = 0 →
    (s.eng.run = .idle → s.hwDirty = true → exec .poll s = .fault .freqZero) ∧
    (s.eng.run = .idle → s.running = false → s.hwDirty = false → ruleTriggered s → s.stat.opMode ≠ .off →
      s.stat.ctrlMode = .modSpeed → exec .poll s = .fault .freqZero) ∧
    (s.irqEn = true → s.running = true → ¬ ruleBurstEnds s → s.reload = true →
      s.stat.ctrlMode = .modSpeed → exec .cycle s = .fault .freqZero)

/-- R211, R398: a start never uses derived parameters older than the StaticConfig: in the state a `POLL` has started,
running `RECONFIG` again would change nothing. -/
def Obligations.StartsUseFreshParameters : Prop :=
  ∀ s t : State, Legal s → s.eng.run = .idle → exec .poll s = .next t → t.eng.run = .running →
    t.hwDirty = false ∧ t.reconfigured = t

/-! ### The cycle-boundary handler -/

/-- R188, R232, R236, R237: a `CYCLE` that finds the burst ended or `running` cleared goes to IDLE and computes nothing. -/
def Obligations.CycleStopsAtBurstEndOrAbort : Prop :=
  ∀ s : State, s.irqEn = true →
    s.running = false ∨ ruleBurstEnds s →
    ∃ t : State, exec .cycle s = .next t ∧
      t = { s with eng := { s.eng with run := .idle }, ch := t.ch, irqEn := false, trigPending := false,
                   running := false } ∧
      (∀ sl : Slot, sl.phase.idx < s.stat.opMode.code →
        t.ch.get sl =
          { s.ch.get sl with
            enabled  := false
            level    := if (s.stat.ph.get sl).idle then BitVec.ofNat 18 (s.drv.maxCounter.toNat + 1) else 0
            ctrReset := true }) ∧
      (∀ sl : Slot, s.stat.opMode.code ≤ sl.phase.idx → t.ch.get sl = s.ch.get sl)

/-- R241 with steps 4 to 6 (R247 to R251) under R230: a computing `CYCLE` in DIRECT_DUTY. In states that no run reaches
a value is kept modulo its register's width, the model's choice (log entry 8). -/
def Obligations.CycleComputesDirectDuties : Prop :=
  ∀ s : State, s.irqEn = true → s.running = true → ¬ ruleBurstEnds s → s.stat.ctrlMode = .directDuty →
    ∃ t : State, exec .cycle s = .next t ∧
      t = { s with
            eng    := { s.eng with dutyActive := t.eng.dutyActive, burstCycles := t.eng.burstCycles,
                                   burstTicks := t.eng.burstTicks }
            ch     := t.ch
            reload := false } ∧
      (∀ k : Phase, t.eng.dutyActive.get k =
        if s.reload = true ∧ k.idx < s.stat.opMode.code then BitVec.ofNat 34 ((s.runtime.duty.get k).toNat * 2 ^ 17)
        else s.eng.dutyActive.get k) ∧
      levelsFollow s t ∧ counterAdvances s t

/-- R242, R243 with steps 4 to 6 (R247 to R251) under R230: a computing `CYCLE` in MOD_ANGLE. In states that no run
reaches a value is kept modulo its register's width (log entry 8); with more than 16 amplitude bits a duty between two
numerators takes one of them (log entry 18). Both are the model's choice. -/
def Obligations.CycleComputesAngleDuties : Prop :=
  ∀ s : State, s.irqEn = true → s.running = true → ¬ ruleBurstEnds s → s.stat.ctrlMode = .modAngle →
    ∃ t : State, exec .cycle s = .next t ∧
      t = { s with
            eng    := { s.eng with phaseAcc := t.eng.phaseAcc, dutyActive := t.eng.dutyActive,
                                   burstCycles := t.eng.burstCycles, burstTicks := t.eng.burstTicks }
            ch     := t.ch
            reload := false } ∧
      (t.eng.phaseAcc =
        if s.reload then BitVec.ofNat 32 (s.runtime.angle.toNat * 2 ^ 32 / 360000) else s.eng.phaseAcc) ∧
      (∀ k : Phase,
        if k.idx < s.stat.opMode.code then
          ruleModulated s.params s.stat.opMode.code s.runtime.modIndex.toNat t.eng.phaseAcc k (t.eng.dutyActive.get k)
        else t.eng.dutyActive.get k = s.eng.dutyActive.get k) ∧
      levelsFollow s t ∧ counterAdvances s t

/-- R244, R243 with steps 4 to 6 (R247 to R251) under R230: a computing `CYCLE` in MOD_SPEED. In states that no run
reaches a value is kept modulo its register's width (log entry 8); with more than 16 amplitude bits a duty between two
numerators takes one of them (log entry 18). Both are the model's choice. -/
def Obligations.CycleComputesSpeedDuties : Prop :=
  ∀ s : State, s.irqEn = true → s.running = true → ¬ ruleBurstEnds s → s.stat.ctrlMode = .modSpeed →
    (s.reload = true → s.stat.freq ≠ 0) →
    ∃ t : State, exec .cycle s = .next t ∧
      t = { s with
            eng    := { s.eng with phaseAcc := t.eng.phaseAcc, phaseDelta := t.eng.phaseDelta,
                                   dutyActive := t.eng.dutyActive, burstCycles := t.eng.burstCycles,
                                   burstTicks := t.eng.burstTicks }
            ch     := t.ch
            reload := false } ∧
      (t.eng.phaseDelta =
        if s.reload then
          BitVec.ofInt 32 (s.runtime.speed.toInt.sign *
            (s.runtime.speed.toInt.natAbs * 2 ^ 32 / s.stat.freq.toNat : ℕ))
        else s.eng.phaseDelta) ∧
      t.eng.phaseAcc = s.eng.phaseAcc + t.eng.phaseDelta ∧
      (∀ k : Phase,
        if k.idx < s.stat.opMode.code then
          ruleModulated s.params s.stat.opMode.code s.runtime.modIndex.toNat t.eng.phaseAcc k (t.eng.dutyActive.get k)
        else t.eng.dutyActive.get k = s.eng.dutyActive.get k) ∧
      levelsFollow s t ∧ counterAdvances s t

/-! ### The sine table -/

/-- R134, R135: the lookup, with the interpolation's floor on rationals, for every table of R8, every index it uses inside
the table; with 8 table bits the fields are `a[31:30]`, `a[29:22]` and `a[21:0]`. And the decided table is R133's: its
length, ends, sum, exclusive or and weighted sum, and that it never falls. -/
def Obligations.SineFollowsTheLookup : Prop :=
  (∀ (p : Params) (a : BitVec 32), p.tableWf = true →
    let n := 2 ^ p.tableBits
    let q := (a.extractLsb' 30 2).toNat
    let idx := a.toNat / 2 ^ (30 - p.tableBits) % n
    let frac := a.toNat % 2 ^ (30 - p.tableBits)
    let rom := fun i : Nat => ((p.sineRom.getD i 0 : ℕ) : ℤ)
    let lo := if q = 0 ∨ q = 2 then rom idx else rom (n - idx)
    let hi := if q = 0 ∨ q = 2 then rom (idx + 1) else rom (n - idx - 1)
    let mag := lo + ⌊(((hi - lo) * frac : ℤ) : ℚ) / 2 ^ (30 - p.tableBits)⌋
    idx + 1 < p.sineRom.length ∧ p.sineRom.length = n + 1 ∧ (p.tableBits = 8 → idx = (a.extractLsb' 22 8).toNat ∧ frac = (a.extractLsb' 0 22).toNat) ∧
    sine p a = if q = 2 ∨ q = 3 then -mag else mag) ∧
  Params.p0.tableBits = 8 ∧ Params.p0.ampBits = 16 ∧ Params.p0.sineRom = Config.sineRom ∧
  Config.sineRom.length = 257 ∧ Config.sineRom.getD 0 1 = 0 ∧ Config.sineRom.getD 256 0 = 65536 ∧
  Config.sineRom.sum = 10713444 ∧ Config.sineRom.foldl (· ^^^ ·) 0 = 82266 ∧
  (Config.sineRom.mapIdx fun i e => i * e).sum = 1749079026 ∧
  Config.sineRom.Pairwise (· ≤ ·)

/-- R138 (a), (b), (c): half-turn antisymmetry, the mirror about a quarter turn, and the four landmarks, for every table
of R8. -/
def Obligations.SineSymmetriesHoldExactly : Prop :=
  ∀ p : Params,
    (∀ a : BitVec 32, sine p (a + 0x80000000) = - sine p a) ∧
    (p.tableWf = true →
      (∀ x : Nat, x ≤ 2 ^ 30 → sine p (BitVec.ofNat 32 (2 ^ 30 + x)) = sine p (BitVec.ofNat 32 (2 ^ 30 - x))) ∧
      sine p 0 = 0 ∧ sine p 0x40000000 = 2 ^ p.ampBits ∧ sine p 0x80000000 = 0 ∧ sine p 0xC0000000 = -2 ^ p.ampBits)

/-- R138 (d), (e): the bound, and monotonicity on the first quarter turn, for every table of R8. -/
def Obligations.SineIsBoundedAndRises : Prop :=
  ∀ p : Params, p.tableWf = true →
    (∀ a : BitVec 32, -2 ^ p.ampBits ≤ sine p a ∧ sine p a ≤ 2 ^ p.ampBits) ∧
    (∀ a b : BitVec 32, a.toNat ≤ b.toNat → b.toNat ≤ 2 ^ 30 → sine p a ≤ sine p b)

/-- R245: the two duties of 2-PHASE are exactly antisymmetric about one half, for every table of R8; with the decided
amplitude scale a modulated duty is exactly 2^32 + M * SINE (R243). For a table with more than 16 amplitude bits, where the
product of R243 need not be exact, the sum rests on the model's choice that opposite sine values are rounded oppositely
(log entry 18). -/
def Obligations.TwoPhaseDutiesSumToOne : Prop :=
  ∀ (s : State) (acc : BitVec 32), s.params.tableWf = true → s.runtime.modIndex.toNat ≤ 65536 →
    (s.stat.opMode = .ph2 → (modulatedDuty s acc .p0).toNat + (modulatedDuty s acc .p1).toNat = 2 ^ 33) ∧
    (s.params.ampBits = 16 → ∀ k : Phase, k.idx < s.stat.opMode.code →
      ((modulatedDuty s acc k).toNat : Int) =
        2 ^ 32 + s.runtime.modIndex.toNat *
          sine s.params (BitVec.ofNat 32 (acc.toNat + ruleOffset s.stat.opMode.code k.idx)))

/-! ### Properties of the derived parameters -/

/-- R165 (a), R152 and R159: for a legal frequency the period is within `divider` clocks of the exact one, the counter
period and the divider lie in their ranges, and the two deadtime halves give the total, which is within half a count of
the exact product. -/
def Obligations.CompiledPeriodAndDeadtimeAreAccurate : Prop :=
  ∀ (clk f dt : Nat), 0 < clk → legalF clk f = true →
    let d := dividerOf clk f
    let mc := maxCounterOf clk f
    1 ≤ d ∧ d ≤ 255 ∧ 1 ≤ mc ∧ mc ≤ 65534 ∧
    |(2 * d * mc : ℚ) / clk - 1000 / f| ≤ (d : ℚ) / clk ∧
    dtTotalOf dt f mc / 2 + (dtTotalOf dt f mc + 1) / 2 = dtTotalOf dt f mc ∧
    |(dtTotalOf dt f mc : ℚ) - (dt * f * mc * 2 : ℚ) / 10 ^ 12| ≤ 1 / 2

/-- R160, R247: in a legal state with current derived parameters, the clipped duty of every phase, whatever raw duties the
clipper is given, in range or not, lies within the exact margin of both ends. -/
def Obligations.ClippedDutyKeepsTheMargin : Prop :=
  ∀ (s : State) (raw : PerPhase (BitVec 34)) (k : Phase), Legal s → s.hwDirty = false → s.stat.opMode ≠ .off →
    let u := { s with eng := { s.eng with dutyActive := raw } }
    let margin := ruleMargin s.stat.minDuty.toNat s.stat.deadtime.toNat s.stat.freq.toNat
    margin ≤ (u.clippedDuty k : ℚ) / 2 ^ 33 ∧ (u.clippedDuty k : ℚ) / 2 ^ 33 ≤ 1 - margin

/-! ### Whole-machine rules -/

/-- R64: every step keeps a legal state legal, whatever the agents present and in whatever order. -/
def Obligations.EveryStepKeepsTheStateLegal : Prop :=
  ∀ s t : State, Legal s → step s = .next t → Legal t

/-- R254, R340, R344: from a legal state no step stops: there is no fault, no refusal, and the interrupt path never
fails. So every run, whatever is presented and however long, goes on and stays legal (R18, R64). The idle step of an
exhausted list is the model's (log entry 1). -/
def Obligations.LegalStatesNeverStop : Prop :=
  (∀ s : State, Legal s → ∃ t, step s = .next t) ∧
  ∀ (p : Params) (presented : List Occasion) (k : Nat), p.wf = true →
    ∃ t, run p presented k = .next t ∧ Legal t

/-- R252: in every run the low-side level of an active phase stays at least -1 and the high-side level at most the
counter period. -/
def Obligations.LevelsStayBounded : Prop :=
  (∀ p : Params, LevelsBounded (State.resetWith p)) ∧
  (∀ s t : State, Legal s → LevelsBounded s → step s = .next t → LevelsBounded t)

/-- R249 under the comparator convention GK2 (PRESUMED, log entry 13): with the default polarities the two pins of an
active phase are never active at one counter value. -/
def Obligations.NoShootThrough : Prop :=
  ∀ (s : State) (k : Phase) (counter : Nat), Legal s → s.eng.run = .running → phaseActive s.phases k = true →
    (s.stat.ph.get k.lowSlot).inv = false → (s.stat.ph.get k.highSlot).inv = false →
    ¬ (pinActive (s.ch.get k.lowSlot) counter = true ∧ pinActive (s.ch.get k.highSlot) counter = true)

/-- R215, R216, R21: only `POLL` takes IDLE to RUNNING and only `CYCLE` takes RUNNING to IDLE. -/
def Obligations.OnlyPollAndCycleMoveTheState : Prop :=
  ∀ (i : Instr) (s t : State), exec i s = .next t → t.eng.run ≠ s.eng.run →
    (i = .poll ∧ s.eng.run = .idle ∧ t.eng.run = .running) ∨
    (i = .cycle ∧ s.eng.run = .running ∧ t.eng.run = .idle)

/-- R86, R34, R61, R77: which operations write each field, and for each flag which set and which clear it. -/
def Obligations.FieldsHaveTheirOwners : Prop :=
  ∀ (i : Instr) (s t : State), exec i s = .next t →
    (t.stat ≠ s.stat ∨ t.runtime ≠ s.runtime ∨ t.trigger ≠ s.trigger ∨ t.burst ≠ s.burst →
      fromHost i = true ∨ i = .rstdone) ∧
    (s.hwDirty = false → t.hwDirty = true → fromHost i = true ∨ i = .rstdone) ∧
    (s.hwDirty = true → t.hwDirty = false → i = .poll) ∧
    (s.reload = false → t.reload = true → fromHost i = true ∨ i = .rstdone) ∧
    (s.reload = true → t.reload = false → i = .poll ∨ i = .cycle) ∧
    (s.trigPending = false → t.trigPending = true → i = .dlyexp) ∧
    (s.trigPending = true → t.trigPending = false → i = .poll ∨ i = .cycle) ∧
    (s.running = false → t.running = true → i = .poll) ∧
    (s.running = true → t.running = false → i = .abort ∨ i = .rstdef ∨ i = .cycle) ∧
    (s.delayPending = false → t.delayPending = true →
      i ∈ [Instr.trigImmediate, .trigInternalTimer, .trigBus, .itfire]) ∧
    (s.delayPending = true → t.delayPending = false → i = .dlyexp) ∧
    (t.delayUs ≠ s.delayUs → i ∈ [Instr.trigImmediate, .trigInternalTimer, .trigBus, .itfire]) ∧
    (t.itimerArmed ≠ s.itimerArmed → (∃ v, i = .wrTrigSource v) ∨ i = .rstdone) ∧
    (t.itimerUs ≠ s.itimerUs → i = .wrTrigSource 1) ∧
    (s.rstWait = false → t.rstWait = true → i = .rstdef) ∧
    (s.rstWait = true → t.rstWait = false → i = .rstdone) ∧
    (t.rsp ≠ s.rsp → fromHost i = true ∨ i = .rstdone) ∧
    (t.eng ≠ s.eng ∨ t.drv ≠ s.drv ∨ t.ch ≠ s.ch ∨ t.irqEn ≠ s.irqEn ∨ t.irqChan ≠ s.irqChan →
      i = .poll ∨ i = .cycle)

/-- R219: after an `ABORT` in RUNNING the next `CYCLE` returns to IDLE, and `RD STATUS` then answers 0. -/
def Obligations.AbortThenCycleReturnsToIdle : Prop :=
  ∀ s : State, Legal s → s.rstWait = false → s.eng.run = .running →
    ∃ t u v : State, exec .abort s = .next t ∧ t.eng.run = .running ∧ exec .cycle t = .next u ∧
      u.eng.run = .idle ∧ exec .rdStatus u = .next v ∧ v.rsp = answer 0 0

/-- R190: a burst of NCYCLES with `BURST_COUNT` = N computes in exactly N `CYCLE`s after the start, with its channels
enabled, and the next one returns to IDLE. -/
def Obligations.NcyclesBurstEndsAfterItsCount : Prop :=
  ∀ s : State, Legal s → s.eng.run = .running → s.running = true → s.burst.kind = .ncycles →
    s.eng.burstCycles = 0 →
    (∀ j ≤ s.burst.count.toNat, ∃ t, runCycles j s = .next t ∧ t.eng.run = .running ∧
      t.eng.burstCycles.toNat = j ∧ ∀ sl, slotActive s.phases sl = true → (t.ch.get sl).enabled = true) ∧
    ∃ t, runCycles (s.burst.count.toNat + 1) s = .next t ∧ t.eng.run = .idle ∧
      t.eng.burstCycles = s.burst.count ∧ ∀ sl, (t.ch.get sl).enabled = false

/-- R191: a DURATION burst with timeout T and c ticks per cycle returns to IDLE at the `CYCLE` number ceil(T / c) + 1
after the start, having computed in every one before. -/
def Obligations.DurationBurstEndsAtItsTimeout : Prop :=
  ∀ s : State, Legal s → s.eng.run = .running → s.running = true → s.burst.kind = .duration →
    s.eng.burstTicks = 0 → s.eng.burstTimeout.toNat < 2 ^ 63 → 0 < s.eng.ticksPerCycle.toNat →
    let n := ⌈(s.eng.burstTimeout.toNat : ℚ) / (s.eng.ticksPerCycle.toNat : ℚ)⌉₊
    (∀ j ≤ n, ∃ t, runCycles j s = .next t ∧ t.eng.run = .running ∧
      t.eng.burstTicks.toNat = j * s.eng.ticksPerCycle.toNat) ∧
    ∃ t, runCycles (n + 1) s = .next t ∧ t.eng.run = .idle ∧
      t.eng.burstTicks.toNat = n * s.eng.ticksPerCycle.toNat
end

