-- ==== Sys2Proof/Laws/Arith.lean ====
section
/-! SUPPORT. The natural-number formulas of the parameter compiler against the rules' own rational ones. -/

namespace Sys2Proof.Machine

/-- `ceilDiv` is the ceiling of the quotient. -/
theorem ceilDiv_eq (a b : Nat) (hb : 0 < b) : ceilDiv a b = ⌈(a : ℚ) / (b : ℚ)⌉₊ := by
  unfold ceilDiv
  rcases Nat.eq_zero_or_pos a with rfl | ha
  · simp; omega
  have hn0 : 0 < (a + b - 1) / b := Nat.div_pos (by omega) hb
  have hq : (0 : ℚ) < b := by exact_mod_cast hb
  have h1 : (a + b - 1) / b * b ≤ a + b - 1 := Nat.div_mul_le_self _ _
  have h2 : a + b - 1 < ((a + b - 1) / b + 1) * b := Nat.lt_mul_of_div_lt (Nat.lt_succ_self _) hb
  symm
  rw [Nat.ceil_eq_iff (by omega), lt_div_iff₀ hq, div_le_iff₀ hq]
  generalize (a + b - 1) / b = n at *
  constructor
  · have : (n - 1) * b < a := by rw [Nat.sub_mul]; omega
    exact_mod_cast this
  · have : a ≤ n * b := by rw [Nat.add_mul] at h2; omega
    exact_mod_cast this

/-- `roundDiv` rounds half up. -/
theorem roundDiv_eq (a b : Nat) (hb : 0 < b) : roundDiv a b = ⌊(a : ℚ) / (b : ℚ) + 1 / 2⌋₊ := by
  have hq : (0 : ℚ) < b := by exact_mod_cast hb
  have : (a : ℚ) / b + 1 / 2 = ((2 * a + b : ℕ) : ℚ) / ((2 * b : ℕ) : ℚ) := by
    push_cast; field_simp
  rw [roundDiv, this, Nat.floor_div_eq_div]

theorem clampNat_bounds (n : Nat) {lo hi : Nat} (h : lo ≤ hi) : lo ≤ clampNat n lo hi ∧ clampNat n lo hi ≤ hi := by
  unfold clampNat; split_ifs <;> omega

theorem dividerRaw_eq (clk f : Nat) (hf : 0 < f) :
    dividerRaw clk f = ⌈((clk * 1000 : ℕ) : ℚ) / ((f * 131068 : ℕ) : ℚ)⌉₊ :=
  ceilDiv_eq _ _ (Nat.mul_pos hf (by decide))

/-- Step 1 of `RECONFIG` is the rule's formula. -/
theorem dividerOf_eq_rule (clk f : Nat) (hf : 0 < f) : dividerOf clk f = ruleDivider clk f := by
  unfold dividerOf ruleDivider
  rw [dividerRaw_eq _ _ hf]
  unfold clampNat
  generalize ⌈((clk * 1000 : ℕ) : ℚ) / ((f * 131068 : ℕ) : ℚ)⌉₊ = n
  split_ifs <;> omega

theorem dividerOf_bounds (clk f : Nat) : 1 ≤ dividerOf clk f ∧ dividerOf clk f ≤ 255 := clampNat_bounds _ (by decide)

/-- Step 2 of `RECONFIG` is the rule's formula. -/
theorem maxCounterOf_eq_rule (clk f : Nat) (hf : 0 < f) : maxCounterOf clk f = ruleMaxCounter clk f := by
  have := (dividerOf_bounds clk f).1
  unfold maxCounterOf ruleMaxCounter
  rw [roundDiv_eq _ _ (by positivity), dividerOf_eq_rule _ _ hf]

/-- Step 4 of `RECONFIG` is the rule's formula. -/
theorem dtTotalOf_eq_rule (dt f mc : Nat) : dtTotalOf dt f mc = ruleDtTotal dt f mc := by
  unfold dtTotalOf ruleDtTotal
  rw [roundDiv_eq _ _ (by norm_num)]
  norm_num

/-- Step 5 of `RECONFIG`: the lower clip bound is the margin, rounded up to a duty numerator. -/
theorem clipLoOf_eq_rule (md dt f : Nat) : clipLoOf md dt f = ⌈ruleMargin md dt f * 2 ^ 33⌉₊ := by
  unfold clipLoOf ruleMargin
  rw [ceilDiv_eq _ _ (by norm_num)]
  congr 1
  push_cast
  ring

/-- The setters' frequency test is R152. -/
theorem legalF_iff (clk f : Nat) : legalF clk f = true ↔ ruleLegalFreq clk f := by
  unfold legalF ruleLegalFreq
  simp only [Bool.and_eq_true, decide_eq_true_eq, and_assoc]
  refine and_congr_right fun hf => ?_
  rw [dividerRaw_eq _ _ hf, maxCounterOf_eq_rule _ _ hf]

/-- The setters' margin test: the margin is below one half. -/
theorem inv4_iff (f dt md : Nat) : inv4 f dt md = true ↔ ruleMargin md dt f < 1 / 2 := by
  unfold inv4 ruleMargin
  rw [decide_eq_true_eq]
  have h : (md : ℚ) / 65536 + ((dt * f : ℕ) : ℚ) / 10 ^ 12 =
      ((md * 10 ^ 12 + 65536 * dt * f : ℕ) : ℚ) / ((65536 * 10 ^ 12 : ℕ) : ℚ) := by
    push_cast; ring
  rw [h, div_lt_div_iff₀ (by norm_num) (by norm_num)]
  constructor
  · intro h
    have h' : (md * 10 ^ 12 + 65536 * dt * f) * 2 < 1 * (65536 * 10 ^ 12) := by linarith
    exact_mod_cast h'
  · intro h
    have h' : (md * 10 ^ 12 + 65536 * dt * f) * 2 < 1 * (65536 * 10 ^ 12) := by exact_mod_cast h
    linarith

/-- The setters' margin test in whole numbers, as R271 writes it. -/
theorem inv4_iff_nat (f dt md : Nat) :
    inv4 f dt md = true ↔ 2 * md * 10 ^ 12 + 2 * 65536 * dt * f < 65536 * 10 ^ 12 := decide_eq_true_iff

/-- The setters' speed test. -/
theorem inv5_iff (x : Int) (f : Nat) : inv5 x f = true ↔ 2 * |x| ≤ (f : Int) := by
  rw [inv5, decide_eq_true_eq, Int.abs_eq_natAbs]
  omega

end Sys2Proof.Machine
end

