-- ==== Sys2Proof/Laws/State.lean ====
section
/-! SUPPORT. One lemma per field of the state and per named update, each true by unfolding the update once; and the
containers' lemmas. -/

namespace Sys2Proof

@[simp] theorem PerPhase.get_tabulate {α : Type} (f : Phase → α) (k : Phase) : (PerPhase.tabulate f).get k = f k := by
  cases k <;> rfl

@[simp] theorem PerSlot.get_tabulate {α : Type} (f : Slot → α) (sl : Slot) : (PerSlot.tabulate f).get sl = f sl := by
  cases sl <;> rfl

theorem PerPhase.get_set {α : Type} (x : PerPhase α) (k j : Phase) (v : α) :
    (x.set k v).get j = if j = k then v else x.get j := PerPhase.get_tabulate _ _

theorem PerSlot.get_set {α : Type} (x : PerSlot α) (sl j : Slot) (v : α) :
    (x.set sl v).get j = if j = sl then v else x.get j := PerSlot.get_tabulate _ _

theorem PerPhase.ext_get {α : Type} {x y : PerPhase α} (h : ∀ k, x.get k = y.get k) : x = y := by
  cases x; cases y
  have h0 := h .p0; have h1 := h .p1; have h2 := h .p2
  simp only [PerPhase.get] at h0 h1 h2
  subst h0; subst h1; subst h2; rfl

theorem PerSlot.ext_get {α : Type} {x y : PerSlot α} (h : ∀ sl, x.get sl = y.get sl) : x = y := by
  cases x; cases y
  have h0 := h .l0; have h1 := h .h0; have h2 := h .l1; have h3 := h .h1; have h4 := h .l2; have h5 := h .h2
  simp only [PerSlot.get] at h0 h1 h2 h3 h4 h5
  subst h0; subst h1; subst h2; subst h3; subst h4; subst h5; rfl

@[simp] theorem Phase.lowSlot_phase (k : Phase) : k.lowSlot.phase = k := by cases k <;> rfl
@[simp] theorem Phase.highSlot_phase (k : Phase) : k.highSlot.phase = k := by cases k <;> rfl
@[simp] theorem Phase.lowSlot_side (k : Phase) : k.lowSlot.side = .low := by cases k <;> rfl
@[simp] theorem Phase.highSlot_side (k : Phase) : k.highSlot.side = .high := by cases k <;> rfl
theorem Slot.mem_all (sl : Slot) : sl ∈ Slot.all := by cases sl <;> decide

namespace Machine

@[simp] theorem State.respond_params (s : State) (st : Status) (v : Word) : (s.respond st v).params = s.params := rfl
@[simp] theorem State.respond_stat (s : State) (st : Status) (v : Word) : (s.respond st v).stat = s.stat := rfl
@[simp] theorem State.respond_runtime (s : State) (st : Status) (v : Word) : (s.respond st v).runtime = s.runtime := rfl
@[simp] theorem State.respond_trigger (s : State) (st : Status) (v : Word) : (s.respond st v).trigger = s.trigger := rfl
@[simp] theorem State.respond_burst (s : State) (st : Status) (v : Word) : (s.respond st v).burst = s.burst := rfl
@[simp] theorem State.respond_eng (s : State) (st : Status) (v : Word) : (s.respond st v).eng = s.eng := rfl
@[simp] theorem State.respond_running (s : State) (st : Status) (v : Word) : (s.respond st v).running = s.running := rfl
@[simp] theorem State.respond_hwDirty (s : State) (st : Status) (v : Word) : (s.respond st v).hwDirty = s.hwDirty := rfl
@[simp] theorem State.respond_reload (s : State) (st : Status) (v : Word) : (s.respond st v).reload = s.reload := rfl
@[simp] theorem State.respond_trigPending (s : State) (st : Status) (v : Word) : (s.respond st v).trigPending = s.trigPending := rfl
@[simp] theorem State.respond_delayPending (s : State) (st : Status) (v : Word) : (s.respond st v).delayPending = s.delayPending := rfl
@[simp] theorem State.respond_itimerArmed (s : State) (st : Status) (v : Word) : (s.respond st v).itimerArmed = s.itimerArmed := rfl
@[simp] theorem State.respond_rstWait (s : State) (st : Status) (v : Word) : (s.respond st v).rstWait = s.rstWait := rfl
@[simp] theorem State.respond_drv (s : State) (st : Status) (v : Word) : (s.respond st v).drv = s.drv := rfl
@[simp] theorem State.respond_ch (s : State) (st : Status) (v : Word) : (s.respond st v).ch = s.ch := rfl
@[simp] theorem State.respond_irqEn (s : State) (st : Status) (v : Word) : (s.respond st v).irqEn = s.irqEn := rfl
@[simp] theorem State.respond_irqChan (s : State) (st : Status) (v : Word) : (s.respond st v).irqChan = s.irqChan := rfl
@[simp] theorem State.respond_delayUs (s : State) (st : Status) (v : Word) : (s.respond st v).delayUs = s.delayUs := rfl
@[simp] theorem State.respond_itimerUs (s : State) (st : Status) (v : Word) : (s.respond st v).itimerUs = s.itimerUs := rfl
@[simp] theorem State.respond_outEn (s : State) (st : Status) (v : Word) : (s.respond st v).outEn = s.outEn := rfl
@[simp] theorem State.respond_rsp (s : State) (st : Status) (v : Word) : (s.respond st v).rsp = some (rspWord st v) := rfl
@[simp] theorem State.respond_sched (s : State) (st : Status) (v : Word) : (s.respond st v).sched = s.sched := rfl

@[simp] theorem State.fail_params (s : State) (st : Status) : (s.fail st).params = s.params := rfl
@[simp] theorem State.fail_stat (s : State) (st : Status) : (s.fail st).stat = s.stat := rfl
@[simp] theorem State.fail_runtime (s : State) (st : Status) : (s.fail st).runtime = s.runtime := rfl
@[simp] theorem State.fail_trigger (s : State) (st : Status) : (s.fail st).trigger = s.trigger := rfl
@[simp] theorem State.fail_burst (s : State) (st : Status) : (s.fail st).burst = s.burst := rfl
@[simp] theorem State.fail_eng (s : State) (st : Status) : (s.fail st).eng = s.eng := rfl
@[simp] theorem State.fail_running (s : State) (st : Status) : (s.fail st).running = s.running := rfl
@[simp] theorem State.fail_hwDirty (s : State) (st : Status) : (s.fail st).hwDirty = s.hwDirty := rfl
@[simp] theorem State.fail_reload (s : State) (st : Status) : (s.fail st).reload = s.reload := rfl
@[simp] theorem State.fail_trigPending (s : State) (st : Status) : (s.fail st).trigPending = s.trigPending := rfl
@[simp] theorem State.fail_delayPending (s : State) (st : Status) : (s.fail st).delayPending = s.delayPending := rfl
@[simp] theorem State.fail_itimerArmed (s : State) (st : Status) : (s.fail st).itimerArmed = s.itimerArmed := rfl
@[simp] theorem State.fail_rstWait (s : State) (st : Status) : (s.fail st).rstWait = s.rstWait := rfl
@[simp] theorem State.fail_drv (s : State) (st : Status) : (s.fail st).drv = s.drv := rfl
@[simp] theorem State.fail_ch (s : State) (st : Status) : (s.fail st).ch = s.ch := rfl
@[simp] theorem State.fail_irqEn (s : State) (st : Status) : (s.fail st).irqEn = s.irqEn := rfl
@[simp] theorem State.fail_irqChan (s : State) (st : Status) : (s.fail st).irqChan = s.irqChan := rfl
@[simp] theorem State.fail_delayUs (s : State) (st : Status) : (s.fail st).delayUs = s.delayUs := rfl
@[simp] theorem State.fail_itimerUs (s : State) (st : Status) : (s.fail st).itimerUs = s.itimerUs := rfl
@[simp] theorem State.fail_outEn (s : State) (st : Status) : (s.fail st).outEn = s.outEn := rfl
@[simp] theorem State.fail_rsp (s : State) (st : Status) : (s.fail st).rsp = some (rspWord st 0) := rfl
@[simp] theorem State.fail_sched (s : State) (st : Status) : (s.fail st).sched = s.sched := rfl

@[simp] theorem State.storeStatic_params (s : State) (c : StaticConfig) : (s.storeStatic c).params = s.params := rfl
@[simp] theorem State.storeStatic_stat (s : State) (c : StaticConfig) : (s.storeStatic c).stat = c := rfl
@[simp] theorem State.storeStatic_runtime (s : State) (c : StaticConfig) : (s.storeStatic c).runtime = s.runtime := rfl
@[simp] theorem State.storeStatic_trigger (s : State) (c : StaticConfig) : (s.storeStatic c).trigger = s.trigger := rfl
@[simp] theorem State.storeStatic_burst (s : State) (c : StaticConfig) : (s.storeStatic c).burst = s.burst := rfl
@[simp] theorem State.storeStatic_eng (s : State) (c : StaticConfig) : (s.storeStatic c).eng = s.eng := rfl
@[simp] theorem State.storeStatic_running (s : State) (c : StaticConfig) : (s.storeStatic c).running = s.running := rfl
@[simp] theorem State.storeStatic_hwDirty (s : State) (c : StaticConfig) : (s.storeStatic c).hwDirty = true := rfl
@[simp] theorem State.storeStatic_reload (s : State) (c : StaticConfig) : (s.storeStatic c).reload = s.reload := rfl
@[simp] theorem State.storeStatic_trigPending (s : State) (c : StaticConfig) : (s.storeStatic c).trigPending = s.trigPending := rfl
@[simp] theorem State.storeStatic_delayPending (s : State) (c : StaticConfig) : (s.storeStatic c).delayPending = s.delayPending := rfl
@[simp] theorem State.storeStatic_itimerArmed (s : State) (c : StaticConfig) : (s.storeStatic c).itimerArmed = s.itimerArmed := rfl
@[simp] theorem State.storeStatic_rstWait (s : State) (c : StaticConfig) : (s.storeStatic c).rstWait = s.rstWait := rfl
@[simp] theorem State.storeStatic_drv (s : State) (c : StaticConfig) : (s.storeStatic c).drv = s.drv := rfl
@[simp] theorem State.storeStatic_ch (s : State) (c : StaticConfig) : (s.storeStatic c).ch = s.ch := rfl
@[simp] theorem State.storeStatic_irqEn (s : State) (c : StaticConfig) : (s.storeStatic c).irqEn = s.irqEn := rfl
@[simp] theorem State.storeStatic_irqChan (s : State) (c : StaticConfig) : (s.storeStatic c).irqChan = s.irqChan := rfl
@[simp] theorem State.storeStatic_delayUs (s : State) (c : StaticConfig) : (s.storeStatic c).delayUs = s.delayUs := rfl
@[simp] theorem State.storeStatic_itimerUs (s : State) (c : StaticConfig) : (s.storeStatic c).itimerUs = s.itimerUs := rfl
@[simp] theorem State.storeStatic_outEn (s : State) (c : StaticConfig) : (s.storeStatic c).outEn = s.outEn := rfl
@[simp] theorem State.storeStatic_rsp (s : State) (c : StaticConfig) : (s.storeStatic c).rsp = s.rsp := rfl
@[simp] theorem State.storeStatic_sched (s : State) (c : StaticConfig) : (s.storeStatic c).sched = s.sched := rfl

@[simp] theorem State.storeRuntime_params (s : State) (c : RuntimeParams) : (s.storeRuntime c).params = s.params := rfl
@[simp] theorem State.storeRuntime_stat (s : State) (c : RuntimeParams) : (s.storeRuntime c).stat = s.stat := rfl
@[simp] theorem State.storeRuntime_runtime (s : State) (c : RuntimeParams) : (s.storeRuntime c).runtime = c := rfl
@[simp] theorem State.storeRuntime_trigger (s : State) (c : RuntimeParams) : (s.storeRuntime c).trigger = s.trigger := rfl
@[simp] theorem State.storeRuntime_burst (s : State) (c : RuntimeParams) : (s.storeRuntime c).burst = s.burst := rfl
@[simp] theorem State.storeRuntime_eng (s : State) (c : RuntimeParams) : (s.storeRuntime c).eng = s.eng := rfl
@[simp] theorem State.storeRuntime_running (s : State) (c : RuntimeParams) : (s.storeRuntime c).running = s.running := rfl
@[simp] theorem State.storeRuntime_hwDirty (s : State) (c : RuntimeParams) : (s.storeRuntime c).hwDirty = s.hwDirty := rfl
@[simp] theorem State.storeRuntime_reload (s : State) (c : RuntimeParams) : (s.storeRuntime c).reload = true := rfl
@[simp] theorem State.storeRuntime_trigPending (s : State) (c : RuntimeParams) : (s.storeRuntime c).trigPending = s.trigPending := rfl
@[simp] theorem State.storeRuntime_delayPending (s : State) (c : RuntimeParams) : (s.storeRuntime c).delayPending = s.delayPending := rfl
@[simp] theorem State.storeRuntime_itimerArmed (s : State) (c : RuntimeParams) : (s.storeRuntime c).itimerArmed = s.itimerArmed := rfl
@[simp] theorem State.storeRuntime_rstWait (s : State) (c : RuntimeParams) : (s.storeRuntime c).rstWait = s.rstWait := rfl
@[simp] theorem State.storeRuntime_drv (s : State) (c : RuntimeParams) : (s.storeRuntime c).drv = s.drv := rfl
@[simp] theorem State.storeRuntime_ch (s : State) (c : RuntimeParams) : (s.storeRuntime c).ch = s.ch := rfl
@[simp] theorem State.storeRuntime_irqEn (s : State) (c : RuntimeParams) : (s.storeRuntime c).irqEn = s.irqEn := rfl
@[simp] theorem State.storeRuntime_irqChan (s : State) (c : RuntimeParams) : (s.storeRuntime c).irqChan = s.irqChan := rfl
@[simp] theorem State.storeRuntime_delayUs (s : State) (c : RuntimeParams) : (s.storeRuntime c).delayUs = s.delayUs := rfl
@[simp] theorem State.storeRuntime_itimerUs (s : State) (c : RuntimeParams) : (s.storeRuntime c).itimerUs = s.itimerUs := rfl
@[simp] theorem State.storeRuntime_outEn (s : State) (c : RuntimeParams) : (s.storeRuntime c).outEn = s.outEn := rfl
@[simp] theorem State.storeRuntime_rsp (s : State) (c : RuntimeParams) : (s.storeRuntime c).rsp = s.rsp := rfl
@[simp] theorem State.storeRuntime_sched (s : State) (c : RuntimeParams) : (s.storeRuntime c).sched = s.sched := rfl

@[simp] theorem State.storeTrigger_params (s : State) (c : TriggerConfig) : (s.storeTrigger c).params = s.params := rfl
@[simp] theorem State.storeTrigger_stat (s : State) (c : TriggerConfig) : (s.storeTrigger c).stat = s.stat := rfl
@[simp] theorem State.storeTrigger_runtime (s : State) (c : TriggerConfig) : (s.storeTrigger c).runtime = s.runtime := rfl
@[simp] theorem State.storeTrigger_trigger (s : State) (c : TriggerConfig) : (s.storeTrigger c).trigger = c := rfl
@[simp] theorem State.storeTrigger_burst (s : State) (c : TriggerConfig) : (s.storeTrigger c).burst = s.burst := rfl
@[simp] theorem State.storeTrigger_eng (s : State) (c : TriggerConfig) : (s.storeTrigger c).eng = s.eng := rfl
@[simp] theorem State.storeTrigger_running (s : State) (c : TriggerConfig) : (s.storeTrigger c).running = s.running := rfl
@[simp] theorem State.storeTrigger_hwDirty (s : State) (c : TriggerConfig) : (s.storeTrigger c).hwDirty = s.hwDirty := rfl
@[simp] theorem State.storeTrigger_reload (s : State) (c : TriggerConfig) : (s.storeTrigger c).reload = s.reload := rfl
@[simp] theorem State.storeTrigger_trigPending (s : State) (c : TriggerConfig) : (s.storeTrigger c).trigPending = s.trigPending := rfl
@[simp] theorem State.storeTrigger_delayPending (s : State) (c : TriggerConfig) : (s.storeTrigger c).delayPending = s.delayPending := rfl
@[simp] theorem State.storeTrigger_itimerArmed (s : State) (c : TriggerConfig) : (s.storeTrigger c).itimerArmed = s.itimerArmed := rfl
@[simp] theorem State.storeTrigger_rstWait (s : State) (c : TriggerConfig) : (s.storeTrigger c).rstWait = s.rstWait := rfl
@[simp] theorem State.storeTrigger_drv (s : State) (c : TriggerConfig) : (s.storeTrigger c).drv = s.drv := rfl
@[simp] theorem State.storeTrigger_ch (s : State) (c : TriggerConfig) : (s.storeTrigger c).ch = s.ch := rfl
@[simp] theorem State.storeTrigger_irqEn (s : State) (c : TriggerConfig) : (s.storeTrigger c).irqEn = s.irqEn := rfl
@[simp] theorem State.storeTrigger_irqChan (s : State) (c : TriggerConfig) : (s.storeTrigger c).irqChan = s.irqChan := rfl
@[simp] theorem State.storeTrigger_delayUs (s : State) (c : TriggerConfig) : (s.storeTrigger c).delayUs = s.delayUs := rfl
@[simp] theorem State.storeTrigger_itimerUs (s : State) (c : TriggerConfig) : (s.storeTrigger c).itimerUs = s.itimerUs := rfl
@[simp] theorem State.storeTrigger_outEn (s : State) (c : TriggerConfig) : (s.storeTrigger c).outEn = s.outEn := rfl
@[simp] theorem State.storeTrigger_rsp (s : State) (c : TriggerConfig) : (s.storeTrigger c).rsp = s.rsp := rfl
@[simp] theorem State.storeTrigger_sched (s : State) (c : TriggerConfig) : (s.storeTrigger c).sched = s.sched := rfl

@[simp] theorem State.storeBurst_params (s : State) (c : BurstConfig) : (s.storeBurst c).params = s.params := rfl
@[simp] theorem State.storeBurst_stat (s : State) (c : BurstConfig) : (s.storeBurst c).stat = s.stat := rfl
@[simp] theorem State.storeBurst_runtime (s : State) (c : BurstConfig) : (s.storeBurst c).runtime = s.runtime := rfl
@[simp] theorem State.storeBurst_trigger (s : State) (c : BurstConfig) : (s.storeBurst c).trigger = s.trigger := rfl
@[simp] theorem State.storeBurst_burst (s : State) (c : BurstConfig) : (s.storeBurst c).burst = c := rfl
@[simp] theorem State.storeBurst_eng (s : State) (c : BurstConfig) : (s.storeBurst c).eng = s.eng := rfl
@[simp] theorem State.storeBurst_running (s : State) (c : BurstConfig) : (s.storeBurst c).running = s.running := rfl
@[simp] theorem State.storeBurst_hwDirty (s : State) (c : BurstConfig) : (s.storeBurst c).hwDirty = s.hwDirty := rfl
@[simp] theorem State.storeBurst_reload (s : State) (c : BurstConfig) : (s.storeBurst c).reload = s.reload := rfl
@[simp] theorem State.storeBurst_trigPending (s : State) (c : BurstConfig) : (s.storeBurst c).trigPending = s.trigPending := rfl
@[simp] theorem State.storeBurst_delayPending (s : State) (c : BurstConfig) : (s.storeBurst c).delayPending = s.delayPending := rfl
@[simp] theorem State.storeBurst_itimerArmed (s : State) (c : BurstConfig) : (s.storeBurst c).itimerArmed = s.itimerArmed := rfl
@[simp] theorem State.storeBurst_rstWait (s : State) (c : BurstConfig) : (s.storeBurst c).rstWait = s.rstWait := rfl
@[simp] theorem State.storeBurst_drv (s : State) (c : BurstConfig) : (s.storeBurst c).drv = s.drv := rfl
@[simp] theorem State.storeBurst_ch (s : State) (c : BurstConfig) : (s.storeBurst c).ch = s.ch := rfl
@[simp] theorem State.storeBurst_irqEn (s : State) (c : BurstConfig) : (s.storeBurst c).irqEn = s.irqEn := rfl
@[simp] theorem State.storeBurst_irqChan (s : State) (c : BurstConfig) : (s.storeBurst c).irqChan = s.irqChan := rfl
@[simp] theorem State.storeBurst_delayUs (s : State) (c : BurstConfig) : (s.storeBurst c).delayUs = s.delayUs := rfl
@[simp] theorem State.storeBurst_itimerUs (s : State) (c : BurstConfig) : (s.storeBurst c).itimerUs = s.itimerUs := rfl
@[simp] theorem State.storeBurst_outEn (s : State) (c : BurstConfig) : (s.storeBurst c).outEn = s.outEn := rfl
@[simp] theorem State.storeBurst_rsp (s : State) (c : BurstConfig) : (s.storeBurst c).rsp = s.rsp := rfl
@[simp] theorem State.storeBurst_sched (s : State) (c : BurstConfig) : (s.storeBurst c).sched = s.sched := rfl

@[simp] theorem State.clearWires_params (s : State) : s.clearWires.params = s.params := rfl
@[simp] theorem State.clearWires_stat (s : State) : s.clearWires.stat = s.stat := rfl
@[simp] theorem State.clearWires_runtime (s : State) : s.clearWires.runtime = s.runtime := rfl
@[simp] theorem State.clearWires_trigger (s : State) : s.clearWires.trigger = s.trigger := rfl
@[simp] theorem State.clearWires_burst (s : State) : s.clearWires.burst = s.burst := rfl
@[simp] theorem State.clearWires_eng (s : State) : s.clearWires.eng = s.eng := rfl
@[simp] theorem State.clearWires_running (s : State) : s.clearWires.running = s.running := rfl
@[simp] theorem State.clearWires_hwDirty (s : State) : s.clearWires.hwDirty = s.hwDirty := rfl
@[simp] theorem State.clearWires_reload (s : State) : s.clearWires.reload = s.reload := rfl
@[simp] theorem State.clearWires_trigPending (s : State) : s.clearWires.trigPending = s.trigPending := rfl
@[simp] theorem State.clearWires_delayPending (s : State) : s.clearWires.delayPending = s.delayPending := rfl
@[simp] theorem State.clearWires_itimerArmed (s : State) : s.clearWires.itimerArmed = s.itimerArmed := rfl
@[simp] theorem State.clearWires_rstWait (s : State) : s.clearWires.rstWait = s.rstWait := rfl
@[simp] theorem State.clearWires_drv (s : State) : s.clearWires.drv = s.drv := rfl
@[simp] theorem State.clearWires_irqEn (s : State) : s.clearWires.irqEn = s.irqEn := rfl
@[simp] theorem State.clearWires_irqChan (s : State) : s.clearWires.irqChan = s.irqChan := rfl
@[simp] theorem State.clearWires_delayUs (s : State) : s.clearWires.delayUs = s.delayUs := rfl
@[simp] theorem State.clearWires_itimerUs (s : State) : s.clearWires.itimerUs = s.itimerUs := rfl
@[simp] theorem State.clearWires_outEn (s : State) : s.clearWires.outEn = s.outEn := rfl
@[simp] theorem State.clearWires_rsp (s : State) : s.clearWires.rsp = none := rfl
@[simp] theorem State.clearWires_sched (s : State) : s.clearWires.sched = s.sched := rfl

@[simp] theorem State.served_params (s : State) (l : List Occasion) : (s.served l).params = s.params := rfl
@[simp] theorem State.served_stat (s : State) (l : List Occasion) : (s.served l).stat = s.stat := rfl
@[simp] theorem State.served_runtime (s : State) (l : List Occasion) : (s.served l).runtime = s.runtime := rfl
@[simp] theorem State.served_trigger (s : State) (l : List Occasion) : (s.served l).trigger = s.trigger := rfl
@[simp] theorem State.served_burst (s : State) (l : List Occasion) : (s.served l).burst = s.burst := rfl
@[simp] theorem State.served_eng (s : State) (l : List Occasion) : (s.served l).eng = s.eng := rfl
@[simp] theorem State.served_running (s : State) (l : List Occasion) : (s.served l).running = s.running := rfl
@[simp] theorem State.served_hwDirty (s : State) (l : List Occasion) : (s.served l).hwDirty = s.hwDirty := rfl
@[simp] theorem State.served_reload (s : State) (l : List Occasion) : (s.served l).reload = s.reload := rfl
@[simp] theorem State.served_trigPending (s : State) (l : List Occasion) : (s.served l).trigPending = s.trigPending := rfl
@[simp] theorem State.served_delayPending (s : State) (l : List Occasion) : (s.served l).delayPending = s.delayPending := rfl
@[simp] theorem State.served_itimerArmed (s : State) (l : List Occasion) : (s.served l).itimerArmed = s.itimerArmed := rfl
@[simp] theorem State.served_rstWait (s : State) (l : List Occasion) : (s.served l).rstWait = s.rstWait := rfl
@[simp] theorem State.served_drv (s : State) (l : List Occasion) : (s.served l).drv = s.drv := rfl
@[simp] theorem State.served_ch (s : State) (l : List Occasion) : (s.served l).ch = s.clearWires.ch := rfl
@[simp] theorem State.served_irqEn (s : State) (l : List Occasion) : (s.served l).irqEn = s.irqEn := rfl
@[simp] theorem State.served_irqChan (s : State) (l : List Occasion) : (s.served l).irqChan = s.irqChan := rfl
@[simp] theorem State.served_delayUs (s : State) (l : List Occasion) : (s.served l).delayUs = s.delayUs := rfl
@[simp] theorem State.served_itimerUs (s : State) (l : List Occasion) : (s.served l).itimerUs = s.itimerUs := rfl
@[simp] theorem State.served_outEn (s : State) (l : List Occasion) : (s.served l).outEn = s.outEn := rfl
@[simp] theorem State.served_rsp (s : State) (l : List Occasion) : (s.served l).rsp = none := rfl
@[simp] theorem State.served_sched (s : State) (l : List Occasion) : (s.served l).sched = l := rfl

@[simp] theorem State.servedHost_params (s : State) (c : HostCmd) (l : List Occasion) : (s.servedHost c l).params = s.params := rfl
@[simp] theorem State.servedHost_stat (s : State) (c : HostCmd) (l : List Occasion) : (s.servedHost c l).stat = s.stat := rfl
@[simp] theorem State.servedHost_runtime (s : State) (c : HostCmd) (l : List Occasion) : (s.servedHost c l).runtime = s.runtime := rfl
@[simp] theorem State.servedHost_trigger (s : State) (c : HostCmd) (l : List Occasion) : (s.servedHost c l).trigger = s.trigger := rfl
@[simp] theorem State.servedHost_burst (s : State) (c : HostCmd) (l : List Occasion) : (s.servedHost c l).burst = s.burst := rfl
@[simp] theorem State.servedHost_eng (s : State) (c : HostCmd) (l : List Occasion) : (s.servedHost c l).eng = s.eng := rfl
@[simp] theorem State.servedHost_running (s : State) (c : HostCmd) (l : List Occasion) : (s.servedHost c l).running = s.running := rfl
@[simp] theorem State.servedHost_hwDirty (s : State) (c : HostCmd) (l : List Occasion) : (s.servedHost c l).hwDirty = s.hwDirty := rfl
@[simp] theorem State.servedHost_reload (s : State) (c : HostCmd) (l : List Occasion) : (s.servedHost c l).reload = s.reload := rfl
@[simp] theorem State.servedHost_trigPending (s : State) (c : HostCmd) (l : List Occasion) : (s.servedHost c l).trigPending = s.trigPending := rfl
@[simp] theorem State.servedHost_delayPending (s : State) (c : HostCmd) (l : List Occasion) : (s.servedHost c l).delayPending = s.delayPending := rfl
@[simp] theorem State.servedHost_itimerArmed (s : State) (c : HostCmd) (l : List Occasion) : (s.servedHost c l).itimerArmed = s.itimerArmed := rfl
@[simp] theorem State.servedHost_rstWait (s : State) (c : HostCmd) (l : List Occasion) : (s.servedHost c l).rstWait = s.rstWait := rfl
@[simp] theorem State.servedHost_drv (s : State) (c : HostCmd) (l : List Occasion) : (s.servedHost c l).drv = s.drv := rfl
@[simp] theorem State.servedHost_ch (s : State) (c : HostCmd) (l : List Occasion) : (s.servedHost c l).ch = s.clearWires.ch := rfl
@[simp] theorem State.servedHost_irqEn (s : State) (c : HostCmd) (l : List Occasion) : (s.servedHost c l).irqEn = s.irqEn := rfl
@[simp] theorem State.servedHost_irqChan (s : State) (c : HostCmd) (l : List Occasion) : (s.servedHost c l).irqChan = s.irqChan := rfl
@[simp] theorem State.servedHost_delayUs (s : State) (c : HostCmd) (l : List Occasion) : (s.servedHost c l).delayUs = s.delayUs := rfl
@[simp] theorem State.servedHost_itimerUs (s : State) (c : HostCmd) (l : List Occasion) : (s.servedHost c l).itimerUs = s.itimerUs := rfl
@[simp] theorem State.servedHost_outEn (s : State) (c : HostCmd) (l : List Occasion) : (s.servedHost c l).outEn = c.outEn := rfl
@[simp] theorem State.servedHost_rsp (s : State) (c : HostCmd) (l : List Occasion) : (s.servedHost c l).rsp = none := rfl
@[simp] theorem State.servedHost_sched (s : State) (c : HostCmd) (l : List Occasion) : (s.servedHost c l).sched = l := rfl

@[simp] theorem State.configure_params (s : State) (src : TrigSource) : (s.configure src).params = s.params := rfl
@[simp] theorem State.configure_stat (s : State) (src : TrigSource) : (s.configure src).stat = s.stat := rfl
@[simp] theorem State.configure_runtime (s : State) (src : TrigSource) : (s.configure src).runtime = s.runtime := rfl
@[simp] theorem State.configure_trigger (s : State) (src : TrigSource) : (s.configure src).trigger = s.trigger := rfl
@[simp] theorem State.configure_burst (s : State) (src : TrigSource) : (s.configure src).burst = s.burst := rfl
@[simp] theorem State.configure_eng (s : State) (src : TrigSource) : (s.configure src).eng = s.eng := rfl
@[simp] theorem State.configure_running (s : State) (src : TrigSource) : (s.configure src).running = s.running := rfl
@[simp] theorem State.configure_hwDirty (s : State) (src : TrigSource) : (s.configure src).hwDirty = s.hwDirty := rfl
@[simp] theorem State.configure_reload (s : State) (src : TrigSource) : (s.configure src).reload = s.reload := rfl
@[simp] theorem State.configure_trigPending (s : State) (src : TrigSource) : (s.configure src).trigPending = s.trigPending := rfl
@[simp] theorem State.configure_delayPending (s : State) (src : TrigSource) : (s.configure src).delayPending = s.delayPending := rfl
@[simp] theorem State.configure_itimerArmed (s : State) (src : TrigSource) : (s.configure src).itimerArmed = decide (src = .internalTimer) := rfl
@[simp] theorem State.configure_rstWait (s : State) (src : TrigSource) : (s.configure src).rstWait = s.rstWait := rfl
@[simp] theorem State.configure_drv (s : State) (src : TrigSource) : (s.configure src).drv = s.drv := rfl
@[simp] theorem State.configure_ch (s : State) (src : TrigSource) : (s.configure src).ch = s.ch := rfl
@[simp] theorem State.configure_irqEn (s : State) (src : TrigSource) : (s.configure src).irqEn = s.irqEn := rfl
@[simp] theorem State.configure_irqChan (s : State) (src : TrigSource) : (s.configure src).irqChan = s.irqChan := rfl
@[simp] theorem State.configure_delayUs (s : State) (src : TrigSource) : (s.configure src).delayUs = s.delayUs := rfl
@[simp] theorem State.configure_itimerUs (s : State) (src : TrigSource) : (s.configure src).itimerUs = if src = .internalTimer then s.trigger.interval else s.itimerUs := rfl
@[simp] theorem State.configure_outEn (s : State) (src : TrigSource) : (s.configure src).outEn = s.outEn := rfl
@[simp] theorem State.configure_rsp (s : State) (src : TrigSource) : (s.configure src).rsp = s.rsp := rfl
@[simp] theorem State.configure_sched (s : State) (src : TrigSource) : (s.configure src).sched = s.sched := rfl

@[simp] theorem State.armDelay_params (s : State) : s.armDelay.params = s.params := rfl
@[simp] theorem State.armDelay_stat (s : State) : s.armDelay.stat = s.stat := rfl
@[simp] theorem State.armDelay_runtime (s : State) : s.armDelay.runtime = s.runtime := rfl
@[simp] theorem State.armDelay_trigger (s : State) : s.armDelay.trigger = s.trigger := rfl
@[simp] theorem State.armDelay_burst (s : State) : s.armDelay.burst = s.burst := rfl
@[simp] theorem State.armDelay_eng (s : State) : s.armDelay.eng = s.eng := rfl
@[simp] theorem State.armDelay_running (s : State) : s.armDelay.running = s.running := rfl
@[simp] theorem State.armDelay_hwDirty (s : State) : s.armDelay.hwDirty = s.hwDirty := rfl
@[simp] theorem State.armDelay_reload (s : State) : s.armDelay.reload = s.reload := rfl
@[simp] theorem State.armDelay_trigPending (s : State) : s.armDelay.trigPending = s.trigPending := rfl
@[simp] theorem State.armDelay_delayPending (s : State) : s.armDelay.delayPending = true := rfl
@[simp] theorem State.armDelay_itimerArmed (s : State) : s.armDelay.itimerArmed = s.itimerArmed := rfl
@[simp] theorem State.armDelay_rstWait (s : State) : s.armDelay.rstWait = s.rstWait := rfl
@[simp] theorem State.armDelay_drv (s : State) : s.armDelay.drv = s.drv := rfl
@[simp] theorem State.armDelay_ch (s : State) : s.armDelay.ch = s.ch := rfl
@[simp] theorem State.armDelay_irqEn (s : State) : s.armDelay.irqEn = s.irqEn := rfl
@[simp] theorem State.armDelay_irqChan (s : State) : s.armDelay.irqChan = s.irqChan := rfl
@[simp] theorem State.armDelay_delayUs (s : State) : s.armDelay.delayUs = if s.delayPending then s.delayUs else s.trigger.delay := rfl
@[simp] theorem State.armDelay_itimerUs (s : State) : s.armDelay.itimerUs = s.itimerUs := rfl
@[simp] theorem State.armDelay_outEn (s : State) : s.armDelay.outEn = s.outEn := rfl
@[simp] theorem State.armDelay_rsp (s : State) : s.armDelay.rsp = s.rsp := rfl
@[simp] theorem State.armDelay_sched (s : State) : s.armDelay.sched = s.sched := rfl

@[simp] theorem State.dispatch_params (s : State) : s.dispatch.params = s.params := rfl
@[simp] theorem State.dispatch_stat (s : State) : s.dispatch.stat = s.stat := rfl
@[simp] theorem State.dispatch_runtime (s : State) : s.dispatch.runtime = s.runtime := rfl
@[simp] theorem State.dispatch_trigger (s : State) : s.dispatch.trigger = s.trigger := rfl
@[simp] theorem State.dispatch_burst (s : State) : s.dispatch.burst = s.burst := rfl
@[simp] theorem State.dispatch_eng (s : State) : s.dispatch.eng = s.eng := rfl
@[simp] theorem State.dispatch_running (s : State) : s.dispatch.running = s.running := rfl
@[simp] theorem State.dispatch_hwDirty (s : State) : s.dispatch.hwDirty = s.hwDirty := rfl
@[simp] theorem State.dispatch_reload (s : State) : s.dispatch.reload = s.reload := rfl
@[simp] theorem State.dispatch_trigPending (s : State) : s.dispatch.trigPending = true := rfl
@[simp] theorem State.dispatch_delayPending (s : State) : s.dispatch.delayPending = s.delayPending := rfl
@[simp] theorem State.dispatch_itimerArmed (s : State) : s.dispatch.itimerArmed = s.itimerArmed := rfl
@[simp] theorem State.dispatch_rstWait (s : State) : s.dispatch.rstWait = s.rstWait := rfl
@[simp] theorem State.dispatch_drv (s : State) : s.dispatch.drv = s.drv := rfl
@[simp] theorem State.dispatch_ch (s : State) : s.dispatch.ch = s.ch := rfl
@[simp] theorem State.dispatch_irqEn (s : State) : s.dispatch.irqEn = s.irqEn := rfl
@[simp] theorem State.dispatch_irqChan (s : State) : s.dispatch.irqChan = s.irqChan := rfl
@[simp] theorem State.dispatch_delayUs (s : State) : s.dispatch.delayUs = s.delayUs := rfl
@[simp] theorem State.dispatch_itimerUs (s : State) : s.dispatch.itimerUs = s.itimerUs := rfl
@[simp] theorem State.dispatch_outEn (s : State) : s.dispatch.outEn = s.outEn := rfl
@[simp] theorem State.dispatch_rsp (s : State) : s.dispatch.rsp = s.rsp := rfl
@[simp] theorem State.dispatch_sched (s : State) : s.dispatch.sched = s.sched := rfl

@[simp] theorem State.reconfigured_params (s : State) : s.reconfigured.params = s.params := by
  rw [State.reconfigured]
@[simp] theorem State.reconfigured_stat (s : State) : s.reconfigured.stat = s.stat := by
  rw [State.reconfigured]
@[simp] theorem State.reconfigured_runtime (s : State) : s.reconfigured.runtime = s.runtime := by
  rw [State.reconfigured]
@[simp] theorem State.reconfigured_trigger (s : State) : s.reconfigured.trigger = s.trigger := by
  rw [State.reconfigured]
@[simp] theorem State.reconfigured_burst (s : State) : s.reconfigured.burst = s.burst := by
  rw [State.reconfigured]
@[simp] theorem State.reconfigured_running (s : State) : s.reconfigured.running = s.running := by
  rw [State.reconfigured]
@[simp] theorem State.reconfigured_hwDirty (s : State) : s.reconfigured.hwDirty = s.hwDirty := by
  rw [State.reconfigured]
@[simp] theorem State.reconfigured_reload (s : State) : s.reconfigured.reload = s.reload := by
  rw [State.reconfigured]
@[simp] theorem State.reconfigured_trigPending (s : State) : s.reconfigured.trigPending = s.trigPending := by
  rw [State.reconfigured]
@[simp] theorem State.reconfigured_delayPending (s : State) : s.reconfigured.delayPending = s.delayPending := by
  rw [State.reconfigured]
@[simp] theorem State.reconfigured_itimerArmed (s : State) : s.reconfigured.itimerArmed = s.itimerArmed := by
  rw [State.reconfigured]
@[simp] theorem State.reconfigured_rstWait (s : State) : s.reconfigured.rstWait = s.rstWait := by
  rw [State.reconfigured]
@[simp] theorem State.reconfigured_drv (s : State) : s.reconfigured.drv = s.compiled := by
  rw [State.reconfigured]
@[simp] theorem State.reconfigured_irqEn (s : State) : s.reconfigured.irqEn = s.irqEn := by
  rw [State.reconfigured]
@[simp] theorem State.reconfigured_irqChan (s : State) : s.reconfigured.irqChan = s.newIrqChan s.irqChan := by
  rw [State.reconfigured]
@[simp] theorem State.reconfigured_delayUs (s : State) : s.reconfigured.delayUs = s.delayUs := by
  rw [State.reconfigured]
@[simp] theorem State.reconfigured_itimerUs (s : State) : s.reconfigured.itimerUs = s.itimerUs := by
  rw [State.reconfigured]
@[simp] theorem State.reconfigured_outEn (s : State) : s.reconfigured.outEn = s.outEn := by
  rw [State.reconfigured]
@[simp] theorem State.reconfigured_rsp (s : State) : s.reconfigured.rsp = s.rsp := by
  rw [State.reconfigured]
@[simp] theorem State.reconfigured_sched (s : State) : s.reconfigured.sched = s.sched := by
  rw [State.reconfigured]

@[simp] theorem State.withDuties_params (s : State) (f : Phase → BitVec 34) : (s.withDuties f).params = s.params := rfl
@[simp] theorem State.withDuties_stat (s : State) (f : Phase → BitVec 34) : (s.withDuties f).stat = s.stat := rfl
@[simp] theorem State.withDuties_runtime (s : State) (f : Phase → BitVec 34) : (s.withDuties f).runtime = s.runtime := rfl
@[simp] theorem State.withDuties_trigger (s : State) (f : Phase → BitVec 34) : (s.withDuties f).trigger = s.trigger := rfl
@[simp] theorem State.withDuties_burst (s : State) (f : Phase → BitVec 34) : (s.withDuties f).burst = s.burst := rfl
@[simp] theorem State.withDuties_running (s : State) (f : Phase → BitVec 34) : (s.withDuties f).running = s.running := rfl
@[simp] theorem State.withDuties_hwDirty (s : State) (f : Phase → BitVec 34) : (s.withDuties f).hwDirty = s.hwDirty := rfl
@[simp] theorem State.withDuties_reload (s : State) (f : Phase → BitVec 34) : (s.withDuties f).reload = s.reload := rfl
@[simp] theorem State.withDuties_trigPending (s : State) (f : Phase → BitVec 34) : (s.withDuties f).trigPending = s.trigPending := rfl
@[simp] theorem State.withDuties_delayPending (s : State) (f : Phase → BitVec 34) : (s.withDuties f).delayPending = s.delayPending := rfl
@[simp] theorem State.withDuties_itimerArmed (s : State) (f : Phase → BitVec 34) : (s.withDuties f).itimerArmed = s.itimerArmed := rfl
@[simp] theorem State.withDuties_rstWait (s : State) (f : Phase → BitVec 34) : (s.withDuties f).rstWait = s.rstWait := rfl
@[simp] theorem State.withDuties_drv (s : State) (f : Phase → BitVec 34) : (s.withDuties f).drv = s.drv := rfl
@[simp] theorem State.withDuties_ch (s : State) (f : Phase → BitVec 34) : (s.withDuties f).ch = s.ch := rfl
@[simp] theorem State.withDuties_irqEn (s : State) (f : Phase → BitVec 34) : (s.withDuties f).irqEn = s.irqEn := rfl
@[simp] theorem State.withDuties_irqChan (s : State) (f : Phase → BitVec 34) : (s.withDuties f).irqChan = s.irqChan := rfl
@[simp] theorem State.withDuties_delayUs (s : State) (f : Phase → BitVec 34) : (s.withDuties f).delayUs = s.delayUs := rfl
@[simp] theorem State.withDuties_itimerUs (s : State) (f : Phase → BitVec 34) : (s.withDuties f).itimerUs = s.itimerUs := rfl
@[simp] theorem State.withDuties_outEn (s : State) (f : Phase → BitVec 34) : (s.withDuties f).outEn = s.outEn := rfl
@[simp] theorem State.withDuties_rsp (s : State) (f : Phase → BitVec 34) : (s.withDuties f).rsp = s.rsp := rfl
@[simp] theorem State.withDuties_sched (s : State) (f : Phase → BitVec 34) : (s.withDuties f).sched = s.sched := rfl

@[simp] theorem State.withLevels_params (s : State) : s.withLevels.params = s.params := rfl
@[simp] theorem State.withLevels_stat (s : State) : s.withLevels.stat = s.stat := rfl
@[simp] theorem State.withLevels_runtime (s : State) : s.withLevels.runtime = s.runtime := rfl
@[simp] theorem State.withLevels_trigger (s : State) : s.withLevels.trigger = s.trigger := rfl
@[simp] theorem State.withLevels_burst (s : State) : s.withLevels.burst = s.burst := rfl
@[simp] theorem State.withLevels_eng (s : State) : s.withLevels.eng = s.eng := rfl
@[simp] theorem State.withLevels_running (s : State) : s.withLevels.running = s.running := rfl
@[simp] theorem State.withLevels_hwDirty (s : State) : s.withLevels.hwDirty = s.hwDirty := rfl
@[simp] theorem State.withLevels_reload (s : State) : s.withLevels.reload = s.reload := rfl
@[simp] theorem State.withLevels_trigPending (s : State) : s.withLevels.trigPending = s.trigPending := rfl
@[simp] theorem State.withLevels_delayPending (s : State) : s.withLevels.delayPending = s.delayPending := rfl
@[simp] theorem State.withLevels_itimerArmed (s : State) : s.withLevels.itimerArmed = s.itimerArmed := rfl
@[simp] theorem State.withLevels_rstWait (s : State) : s.withLevels.rstWait = s.rstWait := rfl
@[simp] theorem State.withLevels_drv (s : State) : s.withLevels.drv = s.drv := rfl
@[simp] theorem State.withLevels_irqEn (s : State) : s.withLevels.irqEn = s.irqEn := rfl
@[simp] theorem State.withLevels_irqChan (s : State) : s.withLevels.irqChan = s.irqChan := rfl
@[simp] theorem State.withLevels_delayUs (s : State) : s.withLevels.delayUs = s.delayUs := rfl
@[simp] theorem State.withLevels_itimerUs (s : State) : s.withLevels.itimerUs = s.itimerUs := rfl
@[simp] theorem State.withLevels_outEn (s : State) : s.withLevels.outEn = s.outEn := rfl
@[simp] theorem State.withLevels_rsp (s : State) : s.withLevels.rsp = s.rsp := rfl
@[simp] theorem State.withLevels_sched (s : State) : s.withLevels.sched = s.sched := rfl

@[simp] theorem State.toIdle_params (s : State) : s.toIdle.params = s.params := rfl
@[simp] theorem State.toIdle_stat (s : State) : s.toIdle.stat = s.stat := rfl
@[simp] theorem State.toIdle_runtime (s : State) : s.toIdle.runtime = s.runtime := rfl
@[simp] theorem State.toIdle_trigger (s : State) : s.toIdle.trigger = s.trigger := rfl
@[simp] theorem State.toIdle_burst (s : State) : s.toIdle.burst = s.burst := rfl
@[simp] theorem State.toIdle_eng (s : State) : s.toIdle.eng = { s.eng with run := .idle } := rfl
@[simp] theorem State.toIdle_running (s : State) : s.toIdle.running = false := rfl
@[simp] theorem State.toIdle_hwDirty (s : State) : s.toIdle.hwDirty = s.hwDirty := rfl
@[simp] theorem State.toIdle_reload (s : State) : s.toIdle.reload = s.reload := rfl
@[simp] theorem State.toIdle_trigPending (s : State) : s.toIdle.trigPending = false := rfl
@[simp] theorem State.toIdle_delayPending (s : State) : s.toIdle.delayPending = s.delayPending := rfl
@[simp] theorem State.toIdle_itimerArmed (s : State) : s.toIdle.itimerArmed = s.itimerArmed := rfl
@[simp] theorem State.toIdle_rstWait (s : State) : s.toIdle.rstWait = s.rstWait := rfl
@[simp] theorem State.toIdle_drv (s : State) : s.toIdle.drv = s.drv := rfl
@[simp] theorem State.toIdle_irqEn (s : State) : s.toIdle.irqEn = false := rfl
@[simp] theorem State.toIdle_irqChan (s : State) : s.toIdle.irqChan = s.irqChan := rfl
@[simp] theorem State.toIdle_delayUs (s : State) : s.toIdle.delayUs = s.delayUs := rfl
@[simp] theorem State.toIdle_itimerUs (s : State) : s.toIdle.itimerUs = s.itimerUs := rfl
@[simp] theorem State.toIdle_outEn (s : State) : s.toIdle.outEn = s.outEn := rfl
@[simp] theorem State.toIdle_rsp (s : State) : s.toIdle.rsp = s.rsp := rfl
@[simp] theorem State.toIdle_sched (s : State) : s.toIdle.sched = s.sched := rfl

@[simp] theorem State.startReset_params (s : State) : s.startReset.params = s.params := rfl
@[simp] theorem State.startReset_stat (s : State) : s.startReset.stat = s.stat := rfl
@[simp] theorem State.startReset_runtime (s : State) : s.startReset.runtime = s.runtime := rfl
@[simp] theorem State.startReset_trigger (s : State) : s.startReset.trigger = s.trigger := rfl
@[simp] theorem State.startReset_burst (s : State) : s.startReset.burst = s.burst := rfl
@[simp] theorem State.startReset_running (s : State) : s.startReset.running = true := rfl
@[simp] theorem State.startReset_hwDirty (s : State) : s.startReset.hwDirty = s.hwDirty := rfl
@[simp] theorem State.startReset_reload (s : State) : s.startReset.reload = s.reload := rfl
@[simp] theorem State.startReset_trigPending (s : State) : s.startReset.trigPending = false := rfl
@[simp] theorem State.startReset_delayPending (s : State) : s.startReset.delayPending = s.delayPending := rfl
@[simp] theorem State.startReset_itimerArmed (s : State) : s.startReset.itimerArmed = s.itimerArmed := rfl
@[simp] theorem State.startReset_rstWait (s : State) : s.startReset.rstWait = s.rstWait := rfl
@[simp] theorem State.startReset_drv (s : State) : s.startReset.drv = s.drv := rfl
@[simp] theorem State.startReset_ch (s : State) : s.startReset.ch = s.ch := rfl
@[simp] theorem State.startReset_irqEn (s : State) : s.startReset.irqEn = s.irqEn := rfl
@[simp] theorem State.startReset_irqChan (s : State) : s.startReset.irqChan = s.irqChan := rfl
@[simp] theorem State.startReset_delayUs (s : State) : s.startReset.delayUs = s.delayUs := rfl
@[simp] theorem State.startReset_itimerUs (s : State) : s.startReset.itimerUs = s.itimerUs := rfl
@[simp] theorem State.startReset_outEn (s : State) : s.startReset.outEn = s.outEn := rfl
@[simp] theorem State.startReset_rsp (s : State) : s.startReset.rsp = s.rsp := rfl
@[simp] theorem State.startReset_sched (s : State) : s.startReset.sched = s.sched := rfl

@[simp] theorem State.enableOutputs_params (s : State) : s.enableOutputs.params = s.params := rfl
@[simp] theorem State.enableOutputs_stat (s : State) : s.enableOutputs.stat = s.stat := rfl
@[simp] theorem State.enableOutputs_runtime (s : State) : s.enableOutputs.runtime = s.runtime := rfl
@[simp] theorem State.enableOutputs_trigger (s : State) : s.enableOutputs.trigger = s.trigger := rfl
@[simp] theorem State.enableOutputs_burst (s : State) : s.enableOutputs.burst = s.burst := rfl
@[simp] theorem State.enableOutputs_eng (s : State) : s.enableOutputs.eng = s.eng := rfl
@[simp] theorem State.enableOutputs_running (s : State) : s.enableOutputs.running = s.running := rfl
@[simp] theorem State.enableOutputs_hwDirty (s : State) : s.enableOutputs.hwDirty = s.hwDirty := rfl
@[simp] theorem State.enableOutputs_reload (s : State) : s.enableOutputs.reload = s.reload := rfl
@[simp] theorem State.enableOutputs_trigPending (s : State) : s.enableOutputs.trigPending = s.trigPending := rfl
@[simp] theorem State.enableOutputs_delayPending (s : State) : s.enableOutputs.delayPending = s.delayPending := rfl
@[simp] theorem State.enableOutputs_itimerArmed (s : State) : s.enableOutputs.itimerArmed = s.itimerArmed := rfl
@[simp] theorem State.enableOutputs_rstWait (s : State) : s.enableOutputs.rstWait = s.rstWait := rfl
@[simp] theorem State.enableOutputs_drv (s : State) : s.enableOutputs.drv = s.drv := rfl
@[simp] theorem State.enableOutputs_irqEn (s : State) : s.enableOutputs.irqEn = true := rfl
@[simp] theorem State.enableOutputs_irqChan (s : State) : s.enableOutputs.irqChan = s.irqChan := rfl
@[simp] theorem State.enableOutputs_delayUs (s : State) : s.enableOutputs.delayUs = s.delayUs := rfl
@[simp] theorem State.enableOutputs_itimerUs (s : State) : s.enableOutputs.itimerUs = s.itimerUs := rfl
@[simp] theorem State.enableOutputs_outEn (s : State) : s.enableOutputs.outEn = s.outEn := rfl
@[simp] theorem State.enableOutputs_rsp (s : State) : s.enableOutputs.rsp = s.rsp := rfl
@[simp] theorem State.enableOutputs_sched (s : State) : s.enableOutputs.sched = s.sched := rfl

@[simp] theorem State.restoreDefaults_params (s : State) : s.restoreDefaults.params = s.params := rfl
@[simp] theorem State.restoreDefaults_stat (s : State) : s.restoreDefaults.stat = StaticConfig.defaults s.params := rfl
@[simp] theorem State.restoreDefaults_runtime (s : State) : s.restoreDefaults.runtime = RuntimeParams.defaults s.params := rfl
@[simp] theorem State.restoreDefaults_trigger (s : State) : s.restoreDefaults.trigger = TriggerConfig.defaults s.params := rfl
@[simp] theorem State.restoreDefaults_burst (s : State) : s.restoreDefaults.burst = BurstConfig.defaults s.params := rfl
@[simp] theorem State.restoreDefaults_eng (s : State) : s.restoreDefaults.eng = s.eng := rfl
@[simp] theorem State.restoreDefaults_running (s : State) : s.restoreDefaults.running = s.running := rfl
@[simp] theorem State.restoreDefaults_hwDirty (s : State) : s.restoreDefaults.hwDirty = true := rfl
@[simp] theorem State.restoreDefaults_reload (s : State) : s.restoreDefaults.reload = true := rfl
@[simp] theorem State.restoreDefaults_trigPending (s : State) : s.restoreDefaults.trigPending = s.trigPending := rfl
@[simp] theorem State.restoreDefaults_delayPending (s : State) : s.restoreDefaults.delayPending = s.delayPending := rfl
@[simp] theorem State.restoreDefaults_itimerArmed (s : State) : s.restoreDefaults.itimerArmed = s.itimerArmed := rfl
@[simp] theorem State.restoreDefaults_rstWait (s : State) : s.restoreDefaults.rstWait = s.rstWait := rfl
@[simp] theorem State.restoreDefaults_drv (s : State) : s.restoreDefaults.drv = s.drv := rfl
@[simp] theorem State.restoreDefaults_ch (s : State) : s.restoreDefaults.ch = s.ch := rfl
@[simp] theorem State.restoreDefaults_irqEn (s : State) : s.restoreDefaults.irqEn = s.irqEn := rfl
@[simp] theorem State.restoreDefaults_irqChan (s : State) : s.restoreDefaults.irqChan = s.irqChan := rfl
@[simp] theorem State.restoreDefaults_delayUs (s : State) : s.restoreDefaults.delayUs = s.delayUs := rfl
@[simp] theorem State.restoreDefaults_itimerUs (s : State) : s.restoreDefaults.itimerUs = s.itimerUs := rfl
@[simp] theorem State.restoreDefaults_outEn (s : State) : s.restoreDefaults.outEn = s.outEn := rfl
@[simp] theorem State.restoreDefaults_rsp (s : State) : s.restoreDefaults.rsp = s.rsp := rfl
@[simp] theorem State.restoreDefaults_sched (s : State) : s.restoreDefaults.sched = s.sched := rfl

@[simp] theorem State.clearWires_ch_get (s : State) (sl : Slot) :
    s.clearWires.ch.get sl = { s.ch.get sl with ctrReset := false } := by cases sl <;> rfl

@[simp] theorem State.reconfigured_eng (s : State) :
    s.reconfigured.eng =
      { s.eng with ticksPerCycle := BitVec.ofNat 32 (2 * s.newDivider * s.newMaxCounter) } := rfl

@[simp] theorem State.reconfigured_ch_get (s : State) (sl : Slot) :
    s.reconfigured.ch.get sl = if slotActive s.phases sl then s.programmed sl else s.ch.get sl := by
  cases sl <;> rfl

@[simp] theorem State.withDuties_dutyActive_get (s : State) (f : Phase → BitVec 34) (k : Phase) :
    (s.withDuties f).eng.dutyActive.get k =
      if phaseActive s.phases k then f k else s.eng.dutyActive.get k := by
  cases k <;> rfl

@[simp] theorem State.withLevels_ch_get (s : State) (sl : Slot) :
    s.withLevels.ch.get sl =
      if slotActive s.phases sl then { s.ch.get sl with level := BitVec.ofInt 18 (s.slotLevel sl) }
      else s.ch.get sl := by
  cases sl <;> rfl

@[simp] theorem State.toIdle_ch_get (s : State) (sl : Slot) :
    s.toIdle.ch.get sl =
      if slotActive s.phases sl then
        { s.ch.get sl with
          enabled  := false
          level    := BitVec.ofNat 18 (s.idleLevel (s.stat.ph.get sl).idle)
          ctrReset := true }
      else s.ch.get sl := by
  cases sl <;> rfl

@[simp] theorem State.enableOutputs_ch_get (s : State) (sl : Slot) :
    s.enableOutputs.ch.get sl =
      if slotActive s.phases sl then { s.ch.get sl with enabled := true } else s.ch.get sl := by
  cases sl <;> rfl

/-- `ARM_DELAY` while a delay is pending is dropped (R182). -/
theorem State.armDelay_of_pending (s : State) (h : s.delayPending = true) : s.armDelay = s := by
  cases s; simp_all [State.armDelay]

end Machine
end Sys2Proof
end

