-- ==== Sys2Proof/Laws/Ops.lean ====
section
/-! SUPPORT. One lemma per shared operation that says what it can do, for the proofs to cite. -/

namespace Sys2Proof.Machine

/-! ### Responses, setters, reads -/

theorem hostCommand_of_free (s t : State) (h : s.rstWait = false) : hostCommand s t = .next t := by
  simp [hostCommand, h]

theorem hostCommand_of_waiting (s t : State) (h : s.rstWait = true) : hostCommand s t = .fault .hostStuck := by
  simp [hostCommand, h]

/-- If a host command answers a next state, the host was not waiting and the state is the one given. -/
theorem hostCommand_next {s t u : State} (h : hostCommand s t = .next u) : s.rstWait = false ∧ u = t := by
  unfold hostCommand at h
  split at h
  · cases h
  · rename_i hw
    cases h
    exact ⟨by simpa using hw, rfl⟩

@[simp] theorem firstFailing_nil : firstFailing [] = none := rfl
@[simp] theorem firstFailing_true (st : Status) (l : List (Bool × Status)) :
    firstFailing ((true, st) :: l) = some st := rfl
@[simp] theorem firstFailing_false (st : Status) (l : List (Bool × Status)) :
    firstFailing ((false, st) :: l) = firstFailing l := rfl

/-- The status a setter answers is the status of one of its checks that fails. -/
theorem firstFailing_mem {l : List (Bool × Status)} {st : Status} (h : firstFailing l = some st) : (true, st) ∈ l := by
  induction l with
  | nil => simp [firstFailing] at h
  | cons c rest ih =>
    obtain ⟨b, st'⟩ := c
    cases b
    · exact List.mem_cons_of_mem _ (ih (by simpa using h))
    · simp only [firstFailing_true, Option.some.injEq] at h
      simp [h]

/-- A setter without a failing check stores: every check of its list is false. -/
theorem firstFailing_none {l : List (Bool × Status)} : firstFailing l = none ↔ ∀ c ∈ l, c.1 = false := by
  induction l with
  | nil => simp
  | cons c rest ih =>
    obtain ⟨b, st⟩ := c
    cases b <;> simp [ih]

/-- All a guarded setter can do: refuse with the status of its first failing check and change nothing else, or perform
its effect and answer OK. -/
theorem guardedSet_next {s e t : State} {l : List (Bool × Status)} (h : guardedSet s l e = .next t) :
    s.rstWait = false ∧
      ((∃ st, firstFailing l = some st ∧ t = s.fail st) ∨ (firstFailing l = none ∧ t = e.respond .ok 0)) := by
  obtain ⟨hw, ht⟩ := hostCommand_next h
  refine ⟨hw, ?_⟩
  cases hf : firstFailing l with
  | none => right; exact ⟨rfl, by simpa [hf] using ht⟩
  | some st => left; exact ⟨st, rfl, by simpa [hf] using ht⟩

theorem guardedSet_waiting (s e : State) (l : List (Bool × Status)) (h : s.rstWait = true) :
    guardedSet s l e = .fault .hostStuck := hostCommand_of_waiting _ _ h

theorem guardedSet_refuses {s e : State} {l : List (Bool × Status)} {st : Status} (hw : s.rstWait = false)
    (h : firstFailing l = some st) : guardedSet s l e = .next (s.fail st) := by
  simp [guardedSet, hostCommand, hw, h]

theorem guardedSet_stores {s e : State} {l : List (Bool × Status)} (hw : s.rstWait = false)
    (h : firstFailing l = none) : guardedSet s l e = .next (e.respond .ok 0) := by
  simp [guardedSet, hostCommand, hw, h]

/-- A read answers OK with the register's value and changes nothing but the response. -/
theorem readCommand_next {s t : State} {r : Reg} (h : readCommand s r = .next t) :
    s.rstWait = false ∧ t = s.respond .ok (s.readReg r) := hostCommand_next h

/-- A `TRIG` answers OK; the state is that of `FIRE`. -/
theorem trigCommand_next {s t : State} {src : TrigSource} (h : trigCommand s src = .next t) :
    s.rstWait = false ∧ t = (s.fire src).respond .ok 0 := hostCommand_next h

/-- `FIRE` arms the delay on a match and does nothing on a mismatch. -/
theorem State.fire_eq (s : State) (src : TrigSource) :
    (src = s.trigger.source ∧ s.fire src = s.armDelay) ∨ (src ≠ s.trigger.source ∧ s.fire src = s) := by
  unfold State.fire
  split
  · left; exact ⟨‹_›, rfl⟩
  · right; exact ⟨‹_›, rfl⟩

/-! ### Operands -/

theorem opModeOf_code (m : OpMode) : opModeOf (BitVec.ofNat 32 m.code) = some m := by cases m <;> decide
theorem ctrlModeOf_code (m : CtrlMode) : ctrlModeOf (BitVec.ofNat 32 m.code) = some m := by cases m <;> decide
theorem trigSourceOf_code (m : TrigSource) : trigSourceOf (BitVec.ofNat 32 m.code) = some m := by cases m <;> decide
theorem burstTypeOf_code (m : BurstType) : burstTypeOf (BitVec.ofNat 32 m.code) = some m := by cases m <;> decide

theorem OpMode.code_le (m : OpMode) : m.code ≤ 3 := by cases m <;> decide

/-- The stored angle is a legal one. -/
theorem wrapAngle_lt (v : Word) : (wrapAngle v).toNat < 360000 := by
  have h0 : 0 ≤ v.toInt % 360000 := Int.emod_nonneg _ (by norm_num)
  have h1 : v.toInt % 360000 < 360000 := Int.emod_lt_of_pos _ (by norm_num)
  obtain ⟨n, hn⟩ := Int.eq_ofNat_of_zero_le h0
  have hlt : n < 360000 := by omega
  have hw : wrapAngle v = BitVec.ofNat 32 n := by
    unfold wrapAngle
    rw [hn]
    exact BitVec.ofInt_natCast 32 n
  rw [hw, BitVec.toNat_ofNat]
  omega

/-! ### The micro-operations -/

/-- All `RECONFIG` can do: stop on a zero frequency, or write its results. -/
theorem reconfig_ok {s t : State} (h : reconfig s = .ok t) : s.stat.freq ≠ 0 ∧ t = s.reconfigured := by
  unfold reconfig at h
  split at h
  · cases h
  · cases h; exact ⟨‹_›, rfl⟩

/-- All step 3 can do, per control mode. -/
theorem refreshDuties_ok {rl : Bool} {s t : State} (h : refreshDuties rl s = .ok t) :
    (s.stat.ctrlMode = .directDuty ∧ t = refreshDirect rl s) ∨
    (s.stat.ctrlMode = .modAngle ∧ t = refreshAngle rl s) ∨
    (s.stat.ctrlMode = .modSpeed ∧ (rl = true → s.stat.freq ≠ 0) ∧ t = refreshSpeed rl s) := by
  unfold refreshDuties at h
  split at h
  · cases h; left; exact ⟨‹_›, rfl⟩
  · cases h; right; left; exact ⟨‹_›, rfl⟩
  · split at h
    · cases h
    · rename_i hf
      cases h
      right; right
      refine ⟨‹_›, fun hr => ?_, rfl⟩
      simpa [hr] using hf

/-- All `DUTYPASS` can do. -/
theorem dutyPass_ok {force : Bool} {s t : State} (h : dutyPass force s = .ok t) :
    ∃ u, refreshDuties (force || s.reload) s = .ok u ∧ t = { u.withLevels with reload := false } := by
  unfold dutyPass at h
  split at h
  · rename_i u hu
    cases h
    exact ⟨u, hu, rfl⟩
  · cases h

/-- All `START` can do. -/
theorem start_ok {s t : State} (h : start s = .ok t) :
    ∃ u, dutyPass true s.startReset = .ok u ∧ t = u.enableOutputs := by
  unfold start at h
  split at h
  · rename_i u hu
    cases h
    exact ⟨u, hu, rfl⟩
  · cases h

/-- All part 1 of `POLL` can do. -/
theorem pollReconfig_ok {s t : State} (h : pollReconfig s = .ok t) :
    (s.isRunning = false ∧ s.hwDirty = true ∧ s.stat.freq ≠ 0 ∧ t = { s.reconfigured with hwDirty := false }) ∨
    (¬ (s.isRunning = false ∧ s.hwDirty = true) ∧ t = s) := by
  unfold pollReconfig at h
  split at h
  · rename_i hc
    split at h
    · rename_i u hu
      obtain ⟨hf, rfl⟩ := reconfig_ok hu
      cases h
      left; exact ⟨hc.1, hc.2, hf, rfl⟩
    · cases h
  · cases h; right; exact ⟨‹_›, rfl⟩

/-- All part 2 of `POLL` can do: drop the trigger in OFF mode, start, or nothing. -/
theorem pollTrigger_ok {s t : State} (h : pollTrigger s = .ok t) :
    (s.isRunning = false ∧ s.running = false ∧ s.triggered = true ∧
      ((s.stat.opMode = .off ∧ t = { s with trigPending := false }) ∨ (s.stat.opMode ≠ .off ∧ start s = .ok t))) ∨
    (¬ (s.isRunning = false ∧ s.running = false ∧ s.triggered = true) ∧ t = s) := by
  unfold pollTrigger at h
  split at h
  · rename_i hc
    left
    refine ⟨hc.1, hc.2.1, hc.2.2, ?_⟩
    split at h
    · cases h; left; exact ⟨‹_›, rfl⟩
    · right; exact ⟨‹_›, h⟩
  · cases h; right; exact ⟨‹_›, rfl⟩

theorem outcomeOf_next {x : Except Fault State} {t : State} (h : outcomeOf x = .next t) : x = .ok t := by
  cases x with
  | ok u => cases h; rfl
  | error f => cases h

/-- All `POLL` can do: its two parts in order. -/
theorem execPoll_next {s t : State} (h : execPoll s = .next t) :
    ∃ u, pollReconfig s = .ok u ∧ pollTrigger u = .ok t := by
  unfold execPoll at h
  split at h
  · rename_i u hu
    exact ⟨u, hu, outcomeOf_next h⟩
  · cases h

/-- All the handler's body can do: stop, or a duty pass and step 6. -/
theorem cycleHandler_ok {s t : State} (h : cycleHandler s = .ok t) :
    ((s.burstStop = true ∨ s.running = false) ∧ t = s.toIdle) ∨
    (s.burstStop = false ∧ s.running = true ∧ ∃ u, dutyPass false s = .ok u ∧ t = u.advanceBurst) := by
  unfold cycleHandler at h
  split at h
  · rename_i hc
    cases h
    left
    refine ⟨?_, rfl⟩
    simpa using hc
  · rename_i hc
    right
    have hc' : s.burstStop = false ∧ s.running = true := by simpa using hc
    refine ⟨hc'.1, hc'.2, ?_⟩
    split at h
    · rename_i u hu
      cases h
      exact ⟨u, hu, rfl⟩
    · cases h

/-- All `CYCLE` can do: nothing while the interrupt is disabled, else the handler's body. -/
theorem execCycle_next {s t : State} (h : execCycle s = .next t) :
    (s.irqEn = false ∧ t = s) ∨ (s.irqEn = true ∧ cycleHandler s = .ok t) := by
  unfold execCycle at h
  split at h
  · right; exact ⟨‹_›, outcomeOf_next h⟩
  · rename_i hc
    cases h
    left; exact ⟨by simpa using hc, rfl⟩

/-- All `RSTDONE` can do. -/
theorem execRstdone_next {s t : State} (h : execRstdone s = .next t) :
    (s.rstWait = true ∧ s.isRunning = false ∧ t = s.completeReset) ∨
    (¬ (s.rstWait = true ∧ s.isRunning = false) ∧ t = s) := by
  unfold execRstdone at h
  split at h
  · rename_i hc
    cases h
    left
    have hc' : s.rstWait = true ∧ s.isRunning = false := by simpa using hc
    exact ⟨hc'.1, hc'.2, rfl⟩
  · rename_i hc
    cases h
    right
    exact ⟨by simpa using hc, rfl⟩

/-! ### The ports -/

/-- The source an occasion is served from is presented and may be served. -/
theorem Occasion.choose_some {w : Bool} {o : Occasion} {src : Source} (h : o.choose w = some src) :
    o.offers src = true ∧ mayServe w src = true := by
  have := List.find?_some h
  simpa using this

/-- An occasion has nothing to serve exactly if none of its operations may be served. -/
theorem Occasion.choose_none {w : Bool} {o : Occasion} (h : o.choose w = none) (src : Source) :
    ¬ (o.offers src = true ∧ mayServe w src = true) := by
  have hall := List.find?_eq_none.mp h src
  have hmem : src ∈ o.arb ++ Source.every := by
    apply List.mem_append_right
    cases src with
    | host => decide
    | ev e => cases e <;> decide
  simpa using hall hmem

/-- All that serving can be: the oldest occasion with something to serve gives an operation it presents. -/
theorem takeNext_cons (w : Bool) (o : Occasion) (rest : List Occasion) :
    takeNext w (o :: rest) =
      match o.choose w with
      | some src => (o.take src).map fun t => (t, keepOccasion (o.without src) rest)
      | none => (takeNext w rest).map fun (t, rest') => (t, keepOccasion o rest') := rfl

/-- All a step can do. -/
theorem step_next {s t : State} (h : step s = .next t) :
    (takeNext s.rstWait s.sched = none ∧ t = s.clearWires) ∨
    (∃ e pending, takeNext s.rstWait s.sched = some (.event e, pending) ∧ exec e.instr (s.served pending) = .next t) ∨
    (∃ c pending, takeNext s.rstWait s.sched = some (.host c, pending) ∧
      ((∃ i, hostInstr c = some i ∧ exec i (s.servedHost c pending) = .next t) ∨
       (hostInstr c = none ∧ t = (s.servedHost c pending).fail .illegal))) := by
  unfold step at h
  split at h
  · rename_i hn
    cases h; left; exact ⟨hn, rfl⟩
  · rename_i e pending he
    right; left; exact ⟨e, pending, he, h⟩
  · rename_i c pending hc
    right; right
    refine ⟨c, pending, hc, ?_⟩
    split at h
    · rename_i i hi
      left; exact ⟨i, hi, h⟩
    · rename_i hi
      cases h; right; exact ⟨hi, rfl⟩

end Sys2Proof.Machine
end

