-- ==== Sys2Proof/Laws/Cycle.lean ====
section
/-! SUPPORT. The operations of the cycle handler against the rules' own formulas of Safety.lean. -/

namespace Sys2Proof.Machine

theorem phaseActive_iff (n : Nat) (k : Phase) : phaseActive n k = true ↔ k.idx < n := decide_eq_true_iff

theorem phaseActive_false_iff (n : Nat) (k : Phase) : phaseActive n k = false ↔ n ≤ k.idx := by
  rw [← Bool.not_eq_true, phaseActive_iff, not_lt]

theorem slotActive_iff (n : Nat) (sl : Slot) : slotActive n sl = true ↔ sl.phase.idx < n := phaseActive_iff n sl.phase

theorem slotActive_false_iff (n : Nat) (sl : Slot) : slotActive n sl = false ↔ n ≤ sl.phase.idx :=
  phaseActive_false_iff n sl.phase

theorem State.channelInUse_iff (s : State) (sl : Slot) (g : BitVec 8) :
    s.channelInUse sl g = true ↔
      ∃ other, other ≠ sl ∧ chanOf s.params (s.stat.ph.get other).gpio = chanOf s.params g := by
  unfold State.channelInUse
  rw [List.any_eq_true]
  constructor
  · rintro ⟨other, -, h⟩
    rw [Bool.and_eq_true, decide_eq_true_iff, decide_eq_true_iff] at h
    exact ⟨other, h⟩
  · rintro ⟨other, h⟩
    refine ⟨other, Slot.mem_all other, ?_⟩
    rw [Bool.and_eq_true, decide_eq_true_iff, decide_eq_true_iff]
    exact h

/-- The burst policy is the rule's. -/
theorem State.burstStop_iff (s : State) : s.burstStop = true ↔ ruleBurstEnds s := by
  unfold State.burstStop ruleBurstEnds
  cases s.burst.kind <;> simp

/-- The level a slot gets is the rule's. -/
theorem State.slotLevel_eq_rule (s : State) (sl : Slot) :
    BitVec.ofInt 18 (s.slotLevel sl) = ruleLevel s.drv (s.eng.dutyActive.get sl.phase).toNat sl.side := by
  unfold State.slotLevel ruleLevel State.counts State.clippedDuty clampNat
  dsimp only
  cases sl.side <;> simp only [gt_iff_lt]

/-- The phase offset of an active phase is the rule's. -/
theorem add_phaseOffset (m : OpMode) (k : Phase) (acc : BitVec 32) (h : k.idx < m.code) :
    acc + phaseOffset m k = BitVec.ofNat 32 (acc.toNat + ruleOffset m.code k.idx) := by
  rw [BitVec.ofNat_add, BitVec.ofNat_toNat, BitVec.setWidth_eq]
  congr 1
  revert h
  cases m <;> cases k <;> decide

/-- All that a swing's magnitude can be: the quotient, or with a remainder the quotient plus one. -/
theorem swingMagnitude_spec (p : Params) (m mag : Nat) :
    (m * mag * 65536 % p.one = 0 ∧ swingMagnitude p m mag = m * mag * 65536 / p.one) ∨
    (m * mag * 65536 % p.one ≠ 0 ∧
      (swingMagnitude p m mag = m * mag * 65536 / p.one ∨ swingMagnitude p m mag = m * mag * 65536 / p.one + 1)) := by
  unfold swingMagnitude
  split
  · exact .inl ⟨‹_›, rfl⟩
  · refine .inr ⟨‹_›, ?_⟩
    cases Config.swingRoundsUp p.ampBits m mag
    · exact .inl rfl
    · exact .inr rfl

theorem params_one_pos (p : Params) : 0 < p.one := Nat.two_pow_pos _

/-- A swing's magnitude is within one numerator of the exact product. -/
theorem swingMagnitude_near (p : Params) (m mag : Nat) :
    |(swingMagnitude p m mag : ℚ) - (m * mag * 65536 : ℕ) / p.one| < 1 := by
  have h1 : (0 : ℚ) < p.one := by exact_mod_cast (params_one_pos p)
  have hd : ((m * mag * 65536 : ℕ) : ℚ) = p.one * (m * mag * 65536 / p.one : ℕ) + (m * mag * 65536 % p.one : ℕ) := by
    exact_mod_cast (Nat.div_add_mod (m * mag * 65536) p.one).symm
  have hlt : ((m * mag * 65536 % p.one : ℕ) : ℚ) < p.one := by exact_mod_cast Nat.mod_lt _ (params_one_pos p)
  rw [hd, add_div, mul_div_cancel_left₀ _ h1.ne', abs_lt]
  rcases swingMagnitude_spec p m mag with ⟨h0, h⟩ | ⟨h0, h | h⟩ <;> rw [h]
  · rw [h0]
    constructor <;> push_cast <;> simp
  all_goals
    have hp : (0 : ℚ) < (m * mag * 65536 % p.one : ℕ) / p.one := div_pos (by exact_mod_cast Nat.pos_of_ne_zero h0) h1
    have hq : ((m * mag * 65536 % p.one : ℕ) : ℚ) / p.one < 1 := (div_lt_one h1).mpr hlt
    generalize ((m * mag * 65536 % p.one : ℕ) : ℚ) / p.one = r at hp hq
    constructor <;> push_cast <;> linarith

@[simp] theorem dutySwing_neg (p : Params) (m : Nat) (v : Int) : dutySwing p m (-v) = -dutySwing p m v := by
  unfold dutySwing
  rw [Int.natAbs_neg]
  rcases lt_trichotomy v 0 with h | rfl | h
  · rw [if_pos (by omega), if_neg (by omega), neg_neg]
  · simp [swingMagnitude]
  · rw [if_neg (by omega), if_pos (by omega)]

/-- The swing of a duty is within one numerator of the rule's product. -/
theorem dutySwing_near (p : Params) (m : Nat) (v : Int) :
    |(dutySwing p m v : ℚ) - m / 65536 * (v / p.one) * 2 ^ 32| < 1 := by
  have h := swingMagnitude_near p m v.natAbs
  unfold dutySwing
  split
  · have hv : ((v.natAbs : ℕ) : ℚ) = v := by rw [← Int.cast_natCast, Int.natAbs_of_nonneg ‹_›]
    convert h using 2
    push_cast [hv]
    ring
  · have hv : ((v.natAbs : ℕ) : ℚ) = -v := by
      rw [← Int.cast_natCast, Int.ofNat_natAbs_of_nonpos (show v ≤ 0 by omega), Int.cast_neg]
    rw [← abs_neg]
    convert h using 2
    push_cast [hv]
    ring

/-- With an amplitude scale of at most 16 bits the swing is the exact product. -/
theorem dutySwing_exact (p : Params) (m : Nat) (v : Int) (h : p.ampBits ≤ 16) :
    dutySwing p m v = m * v * 2 ^ (16 - p.ampBits) := by
  have h2 : 65536 = p.one * 2 ^ (16 - p.ampBits) := by
    rw [Params.one, ← pow_add, Nat.add_sub_cancel' h]
    rfl
  have hm : ∀ mag, swingMagnitude p m mag = m * mag * 2 ^ (16 - p.ampBits) := by
    intro mag
    have hx : m * mag * 65536 = p.one * (m * mag * 2 ^ (16 - p.ampBits)) := by
      rw [h2]
      ring
    unfold swingMagnitude
    rw [hx, Nat.mul_div_cancel_left _ (params_one_pos p), Nat.mul_mod_right, if_pos rfl, Nat.add_zero]
  unfold dutySwing
  rw [hm]
  split
  · push_cast [Int.natAbs_of_nonneg ‹_›]
    rfl
  · push_cast [Int.ofNat_natAbs_of_nonpos (show v ≤ 0 by omega)]
    ring

/-- The modulated duty of an active phase is the rule's. -/
theorem modulatedDuty_rule (s : State) (acc : BitVec 32) (k : Phase) (h : k.idx < s.stat.opMode.code) :
    ruleModulated s.params s.stat.opMode.code s.runtime.modIndex.toNat acc k (modulatedDuty s acc k) :=
  ⟨_, by rw [← add_phaseOffset _ _ _ h]; exact dutySwing_near .., rfl⟩

/-- The phase delta is the rule's, the sign taken apart. -/
theorem speedToDelta_eq_rule (a b : Word) :
    speedToDelta a b = BitVec.ofInt 32 (a.toInt.sign * (a.toInt.natAbs * 2 ^ 32 / b.toNat : ℕ)) := by
  unfold speedToDelta
  rcases lt_trichotomy a.toInt 0 with h | h | h
  · simp [Int.sign_eq_neg_one_of_neg h, not_le.mpr h]
  · simp [h]
  · simp [Int.sign_eq_one_of_pos h, h.le]

/-- Step 6 as one update. -/
theorem State.advanceBurst_eq (s : State) :
    s.advanceBurst =
      { s with
        eng := { s.eng with
          burstCycles := if s.burst.kind = .ncycles then s.eng.burstCycles + 1 else s.eng.burstCycles
          burstTicks  := if s.burst.kind = .duration then s.eng.burstTicks + s.eng.ticksPerCycle.setWidth 64
                         else s.eng.burstTicks } } := by
  unfold State.advanceBurst
  cases h : s.burst.kind <;> simp

/-- A `CYCLE` that computes: the duty pass, then step 6. -/
theorem execCycle_computes {s u : State} (he : s.irqEn = true) (hr : s.running = true) (hb : s.burstStop = false)
    (hu : refreshDuties s.reload s = .ok u) :
    execCycle s = .next (State.advanceBurst { u.withLevels with reload := false }) := by
  unfold execCycle cycleHandler dutyPass
  rw [if_pos he, hb, hr]
  simp only [Bool.not_true, Bool.or_self, Bool.false_or, hu]
  rfl

/-- A `CYCLE` that stops. -/
theorem execCycle_stops {s : State} (he : s.irqEn = true) (h : s.burstStop = true ∨ s.running = false) :
    execCycle s = .next s.toIdle := by
  have hc : (s.burstStop || !s.running) = true := by
    rcases h with h | h <;> simp [h]
  unfold execCycle cycleHandler
  rw [if_pos he, if_pos hc]
  rfl

end Sys2Proof.Machine
end

