-- ==== Sys2Proof/Laws/Decode.lean ====
section
/-! SUPPORT. The fields of a command word built from its fields, and the addresses of the registers. -/

namespace Sys2Proof

@[simp] theorem opField_cmdWord (op : BitVec 4) (a : BitVec 8) (v : Word) : opField (cmdWord op a v) = op := by
  apply BitVec.eq_of_toNat_eq
  simp only [opField, cmdWord, BitVec.extractLsb'_toNat, BitVec.toNat_append, Nat.shiftRight_eq_div_pow]
  rw [← Nat.shiftLeft_add_eq_or_of_lt (by omega), ← Nat.shiftLeft_add_eq_or_of_lt (by omega)]
  simp only [Nat.shiftLeft_eq]
  omega

@[simp] theorem addrField_cmdWord (op : BitVec 4) (a : BitVec 8) (v : Word) : addrField (cmdWord op a v) = a := by
  apply BitVec.eq_of_toNat_eq
  simp only [addrField, cmdWord, BitVec.extractLsb'_toNat, BitVec.toNat_append, Nat.shiftRight_eq_div_pow]
  rw [← Nat.shiftLeft_add_eq_or_of_lt (by omega), ← Nat.shiftLeft_add_eq_or_of_lt (by omega)]
  simp only [Nat.shiftLeft_eq]
  omega

@[simp] theorem dataField_cmdWord (op : BitVec 4) (a : BitVec 8) (v : Word) : dataField (cmdWord op a v) = v := by
  apply BitVec.eq_of_toNat_eq
  simp only [dataField, cmdWord, BitVec.extractLsb'_toNat, BitVec.toNat_append, Nat.shiftRight_eq_div_pow]
  rw [← Nat.shiftLeft_add_eq_or_of_lt (by omega), ← Nat.shiftLeft_add_eq_or_of_lt (by omega)]
  simp only [Nat.shiftLeft_eq]
  omega

/-- A command word is its three fields. -/
theorem cmdWord_fields (w : CmdWord) : cmdWord (opField w) (addrField w) (dataField w) = w := by
  apply BitVec.eq_of_toNat_eq
  simp only [opField, addrField, dataField, cmdWord, BitVec.extractLsb'_toNat, BitVec.toNat_append,
    Nat.shiftRight_eq_div_pow]
  rw [← Nat.shiftLeft_add_eq_or_of_lt (by omega), ← Nat.shiftLeft_add_eq_or_of_lt (by omega)]
  simp only [Nat.shiftLeft_eq]
  omega

/-- Every mapped address gives its register back. -/
@[simp] theorem Reg.ofAddr_addr (r : Reg) : Reg.ofAddr r.addr = some r := by cases r <;> decide

/-- An address is a register's exactly if the register has it. -/
theorem Reg.ofAddr_eq_some {a : BitVec 8} {r : Reg} : Reg.ofAddr a = some r ↔ r.addr = a := by
  constructor
  · intro h
    simpa using List.find?_some h
  · rintro rfl
    exact Reg.ofAddr_addr r

/-- The address and operation fields alone survive the mask of a `WR` row. -/
theorem cmdWord_and_wrMask (op : BitVec 4) (a : BitVec 8) (v : Word) :
    cmdWord op a v &&& 0xFFF00000000 = cmdWord op a 0 := by
  apply BitVec.eq_of_getLsbD_eq
  intro i hi
  have hm : (0xFFF00000000 : CmdWord).getLsbD i = (decide (32 ≤ i) && decide (i < 44)) := by
    interval_cases i <;> decide
  rw [BitVec.getLsbD_and, hm]
  simp only [cmdWord, BitVec.getLsbD_append]
  by_cases h : i < 32
  · simp [h]
  · simp [h]; omega

end Sys2Proof
end

