-- ==== Sys2Proof/Laws/PerInstr.lean ====
section
/-! SUPPORT. Statements about every operation, one lemma per constructor: the encoding of the operation matches its row
of spec/opcode_table.json (R119). -/

namespace Sys2Proof.Laws

/-- A port word as the opcode table numbers it. -/
def rawWord : PortWord → Nat
  | .cmd w => w.toNat
  | .ev w => w.toNat

/-- The row of spec/opcode_table.json of an operation: `match` and `mask`. -/
def tableRow : Instr → Nat × Nat
  | .wrOpMode _ => (0x10000000000, 0xFFF00000000)
  | .wrCtrlMode _ => (0x10100000000, 0xFFF00000000)
  | .wrFreq _ => (0x10200000000, 0xFFF00000000)
  | .wrDeadtime _ => (0x10300000000, 0xFFF00000000)
  | .wrMinDuty _ => (0x10400000000, 0xFFF00000000)
  | .wrPh0Ls _ => (0x10800000000, 0xFFF00000000)
  | .wrPh0Hs _ => (0x10900000000, 0xFFF00000000)
  | .wrPh1Ls _ => (0x10A00000000, 0xFFF00000000)
  | .wrPh1Hs _ => (0x10B00000000, 0xFFF00000000)
  | .wrPh2Ls _ => (0x10C00000000, 0xFFF00000000)
  | .wrPh2Hs _ => (0x10D00000000, 0xFFF00000000)
  | .wrDuty0 _ => (0x11000000000, 0xFFF00000000)
  | .wrDuty1 _ => (0x11100000000, 0xFFF00000000)
  | .wrDuty2 _ => (0x11200000000, 0xFFF00000000)
  | .wrModIndex _ => (0x11300000000, 0xFFF00000000)
  | .wrAngle _ => (0x11400000000, 0xFFF00000000)
  | .wrSpeed _ => (0x11500000000, 0xFFF00000000)
  | .wrTrigSource _ => (0x11800000000, 0xFFF00000000)
  | .wrTrigDelay _ => (0x11900000000, 0xFFF00000000)
  | .wrTimerInterval _ => (0x11A00000000, 0xFFF00000000)
  | .wrBurstType _ => (0x11C00000000, 0xFFF00000000)
  | .wrBurstCount _ => (0x11D00000000, 0xFFF00000000)
  | .wrBurstDuration _ => (0x11E00000000, 0xFFF00000000)
  | .rdOpMode => (0x20000000000, 0xFFFFFFFFFFF)
  | .rdCtrlMode => (0x20100000000, 0xFFFFFFFFFFF)
  | .rdFreq => (0x20200000000, 0xFFFFFFFFFFF)
  | .rdDeadtime => (0x20300000000, 0xFFFFFFFFFFF)
  | .rdMinDuty => (0x20400000000, 0xFFFFFFFFFFF)
  | .rdPh0Ls => (0x20800000000, 0xFFFFFFFFFFF)
  | .rdPh0Hs => (0x20900000000, 0xFFFFFFFFFFF)
  | .rdPh1Ls => (0x20A00000000, 0xFFFFFFFFFFF)
  | .rdPh1Hs => (0x20B00000000, 0xFFFFFFFFFFF)
  | .rdPh2Ls => (0x20C00000000, 0xFFFFFFFFFFF)
  | .rdPh2Hs => (0x20D00000000, 0xFFFFFFFFFFF)
  | .rdDuty0 => (0x21000000000, 0xFFFFFFFFFFF)
  | .rdDuty1 => (0x21100000000, 0xFFFFFFFFFFF)
  | .rdDuty2 => (0x21200000000, 0xFFFFFFFFFFF)
  | .rdModIndex => (0x21300000000, 0xFFFFFFFFFFF)
  | .rdAngle => (0x21400000000, 0xFFFFFFFFFFF)
  | .rdSpeed => (0x21500000000, 0xFFFFFFFFFFF)
  | .rdTrigSource => (0x21800000000, 0xFFFFFFFFFFF)
  | .rdTrigDelay => (0x21900000000, 0xFFFFFFFFFFF)
  | .rdTimerInterval => (0x21A00000000, 0xFFFFFFFFFFF)
  | .rdBurstType => (0x21C00000000, 0xFFFFFFFFFFF)
  | .rdBurstCount => (0x21D00000000, 0xFFFFFFFFFFF)
  | .rdBurstDuration => (0x21E00000000, 0xFFFFFFFFFFF)
  | .rdStatus => (0x22000000000, 0xFFFFFFFFFFF)
  | .trigImmediate => (0x30000000000, 0xFFFFFFFFFFF)
  | .trigInternalTimer => (0x30000000001, 0xFFFFFFFFFFF)
  | .trigBus => (0x30000000002, 0xFFFFFFFFFFF)
  | .abort => (0x40000000000, 0xFFFFFFFFFFF)
  | .rstdef => (0x50000000000, 0xFFFFFFFFFFF)
  | .cycle => (0x01, 0x1F)
  | .poll => (0x02, 0x1F)
  | .dlyexp => (0x04, 0x1F)
  | .itfire => (0x08, 0x1F)
  | .rstdone => (0x10, 0x1F)

/-- The encoding of the operation matches its row. -/
def EncodingMatchesRow.Statement (i : Instr) : Prop := rawWord (encode i) &&& (tableRow i).2 = (tableRow i).1

/-- The word of a setter, under the mask of its row. -/
theorem wr_matches (r : Reg) (v : Word) :
    rawWord (encodeWr r v) &&& 0xFFF00000000 = (cmdWord 1 r.addr 0).toNat :=
  congrArg BitVec.toNat (cmdWord_and_wrMask 1 r.addr v)

theorem EncodingMatchesRow.wrOpMode (v : Word) : EncodingMatchesRow.Statement (.wrOpMode v) :=
  wr_matches .opMode v
theorem EncodingMatchesRow.wrCtrlMode (v : Word) : EncodingMatchesRow.Statement (.wrCtrlMode v) :=
  wr_matches .ctrlMode v
theorem EncodingMatchesRow.wrFreq (v : Word) : EncodingMatchesRow.Statement (.wrFreq v) :=
  wr_matches .freq v
theorem EncodingMatchesRow.wrDeadtime (v : Word) : EncodingMatchesRow.Statement (.wrDeadtime v) :=
  wr_matches .deadtime v
theorem EncodingMatchesRow.wrMinDuty (v : Word) : EncodingMatchesRow.Statement (.wrMinDuty v) :=
  wr_matches .minDuty v
theorem EncodingMatchesRow.wrPh0Ls (v : Word) : EncodingMatchesRow.Statement (.wrPh0Ls v) :=
  wr_matches .ph0Ls v
theorem EncodingMatchesRow.wrPh0Hs (v : Word) : EncodingMatchesRow.Statement (.wrPh0Hs v) :=
  wr_matches .ph0Hs v
theorem EncodingMatchesRow.wrPh1Ls (v : Word) : EncodingMatchesRow.Statement (.wrPh1Ls v) :=
  wr_matches .ph1Ls v
theorem EncodingMatchesRow.wrPh1Hs (v : Word) : EncodingMatchesRow.Statement (.wrPh1Hs v) :=
  wr_matches .ph1Hs v
theorem EncodingMatchesRow.wrPh2Ls (v : Word) : EncodingMatchesRow.Statement (.wrPh2Ls v) :=
  wr_matches .ph2Ls v
theorem EncodingMatchesRow.wrPh2Hs (v : Word) : EncodingMatchesRow.Statement (.wrPh2Hs v) :=
  wr_matches .ph2Hs v
theorem EncodingMatchesRow.wrDuty0 (v : Word) : EncodingMatchesRow.Statement (.wrDuty0 v) :=
  wr_matches .duty0 v
theorem EncodingMatchesRow.wrDuty1 (v : Word) : EncodingMatchesRow.Statement (.wrDuty1 v) :=
  wr_matches .duty1 v
theorem EncodingMatchesRow.wrDuty2 (v : Word) : EncodingMatchesRow.Statement (.wrDuty2 v) :=
  wr_matches .duty2 v
theorem EncodingMatchesRow.wrModIndex (v : Word) : EncodingMatchesRow.Statement (.wrModIndex v) :=
  wr_matches .modIndex v
theorem EncodingMatchesRow.wrAngle (v : Word) : EncodingMatchesRow.Statement (.wrAngle v) :=
  wr_matches .angle v
theorem EncodingMatchesRow.wrSpeed (v : Word) : EncodingMatchesRow.Statement (.wrSpeed v) :=
  wr_matches .speed v
theorem EncodingMatchesRow.wrTrigSource (v : Word) : EncodingMatchesRow.Statement (.wrTrigSource v) :=
  wr_matches .trigSource v
theorem EncodingMatchesRow.wrTrigDelay (v : Word) : EncodingMatchesRow.Statement (.wrTrigDelay v) :=
  wr_matches .trigDelay v
theorem EncodingMatchesRow.wrTimerInterval (v : Word) : EncodingMatchesRow.Statement (.wrTimerInterval v) :=
  wr_matches .timerInterval v
theorem EncodingMatchesRow.wrBurstType (v : Word) : EncodingMatchesRow.Statement (.wrBurstType v) :=
  wr_matches .burstType v
theorem EncodingMatchesRow.wrBurstCount (v : Word) : EncodingMatchesRow.Statement (.wrBurstCount v) :=
  wr_matches .burstCount v
theorem EncodingMatchesRow.wrBurstDuration (v : Word) : EncodingMatchesRow.Statement (.wrBurstDuration v) :=
  wr_matches .burstDuration v
theorem EncodingMatchesRow.rdOpMode : EncodingMatchesRow.Statement .rdOpMode := rfl
theorem EncodingMatchesRow.rdCtrlMode : EncodingMatchesRow.Statement .rdCtrlMode := rfl
theorem EncodingMatchesRow.rdFreq : EncodingMatchesRow.Statement .rdFreq := rfl
theorem EncodingMatchesRow.rdDeadtime : EncodingMatchesRow.Statement .rdDeadtime := rfl
theorem EncodingMatchesRow.rdMinDuty : EncodingMatchesRow.Statement .rdMinDuty := rfl
theorem EncodingMatchesRow.rdPh0Ls : EncodingMatchesRow.Statement .rdPh0Ls := rfl
theorem EncodingMatchesRow.rdPh0Hs : EncodingMatchesRow.Statement .rdPh0Hs := rfl
theorem EncodingMatchesRow.rdPh1Ls : EncodingMatchesRow.Statement .rdPh1Ls := rfl
theorem EncodingMatchesRow.rdPh1Hs : EncodingMatchesRow.Statement .rdPh1Hs := rfl
theorem EncodingMatchesRow.rdPh2Ls : EncodingMatchesRow.Statement .rdPh2Ls := rfl
theorem EncodingMatchesRow.rdPh2Hs : EncodingMatchesRow.Statement .rdPh2Hs := rfl
theorem EncodingMatchesRow.rdDuty0 : EncodingMatchesRow.Statement .rdDuty0 := rfl
theorem EncodingMatchesRow.rdDuty1 : EncodingMatchesRow.Statement .rdDuty1 := rfl
theorem EncodingMatchesRow.rdDuty2 : EncodingMatchesRow.Statement .rdDuty2 := rfl
theorem EncodingMatchesRow.rdModIndex : EncodingMatchesRow.Statement .rdModIndex := rfl
theorem EncodingMatchesRow.rdAngle : EncodingMatchesRow.Statement .rdAngle := rfl
theorem EncodingMatchesRow.rdSpeed : EncodingMatchesRow.Statement .rdSpeed := rfl
theorem EncodingMatchesRow.rdTrigSource : EncodingMatchesRow.Statement .rdTrigSource := rfl
theorem EncodingMatchesRow.rdTrigDelay : EncodingMatchesRow.Statement .rdTrigDelay := rfl
theorem EncodingMatchesRow.rdTimerInterval : EncodingMatchesRow.Statement .rdTimerInterval := rfl
theorem EncodingMatchesRow.rdBurstType : EncodingMatchesRow.Statement .rdBurstType := rfl
theorem EncodingMatchesRow.rdBurstCount : EncodingMatchesRow.Statement .rdBurstCount := rfl
theorem EncodingMatchesRow.rdBurstDuration : EncodingMatchesRow.Statement .rdBurstDuration := rfl
theorem EncodingMatchesRow.rdStatus : EncodingMatchesRow.Statement .rdStatus := rfl
theorem EncodingMatchesRow.trigImmediate : EncodingMatchesRow.Statement .trigImmediate := rfl
theorem EncodingMatchesRow.trigInternalTimer : EncodingMatchesRow.Statement .trigInternalTimer := rfl
theorem EncodingMatchesRow.trigBus : EncodingMatchesRow.Statement .trigBus := rfl
theorem EncodingMatchesRow.abort : EncodingMatchesRow.Statement .abort := rfl
theorem EncodingMatchesRow.rstdef : EncodingMatchesRow.Statement .rstdef := rfl
theorem EncodingMatchesRow.cycle : EncodingMatchesRow.Statement .cycle := rfl
theorem EncodingMatchesRow.poll : EncodingMatchesRow.Statement .poll := rfl
theorem EncodingMatchesRow.dlyexp : EncodingMatchesRow.Statement .dlyexp := rfl
theorem EncodingMatchesRow.itfire : EncodingMatchesRow.Statement .itfire := rfl
theorem EncodingMatchesRow.rstdone : EncodingMatchesRow.Statement .rstdone := rfl

end Sys2Proof.Laws
end

