-- ==== Sys2Proof/Laws/Ports.lean ====
section
/-! SUPPORT. What is served next, in the vocabulary of Safety.lean. -/

namespace Sys2Proof.Machine

theorem offers_and_mayServe_iff (w : Bool) (o : Occasion) (src : Source) :
    (o.offers src && mayServe w src) = true ↔ servable w o src := by
  cases src with
  | host => cases w <;> simp [Occasion.offers, mayServe, servable, Option.isSome_iff_ne_none]
  | ev e => simp [Occasion.offers, mayServe, servable]

/-- An occasion is served from the first source, in its completed order, that may be served. -/
theorem Occasion.choose_eq_some_of_first {w : Bool} {o : Occasion} {before after : List Source} {src : Source}
    (horder : o.arb ++ Source.every = before ++ src :: after) (hsrc : servable w o src)
    (hbefore : ∀ x ∈ before, ¬ servable w o x) : o.choose w = some src := by
  rw [Occasion.choose, horder, List.find?_eq_some_iff_append]
  refine ⟨(offers_and_mayServe_iff w o src).mpr hsrc, before, after, rfl, fun x hx => ?_⟩
  rw [Bool.not_eq_true', ← Bool.not_eq_true, offers_and_mayServe_iff]
  exact hbefore x hx

/-- With nothing that may be served an occasion has no choice. -/
theorem Occasion.choose_eq_none {w : Bool} {o : Occasion} (h : ∀ x, ¬ servable w o x) : o.choose w = none :=
  List.find?_eq_none.mpr fun x _ hx => h x ((offers_and_mayServe_iff w o x).mp hx)

theorem evWord_eq_zero {w : EvWord} (h : ∀ e : Event, w.getLsbD e.bit = false) : w = 0 := by
  have h0 := h .cycle
  have h1 := h .poll
  have h2 := h .dlyexp
  have h3 := h .itfire
  have h4 := h .rstdone
  clear h
  revert w
  decide

/-- An occasion without anything that may be served stays in front exactly if a host request waits in it. -/
theorem keepOccasion_of_unservable {w : Bool} {o : Occasion} (h : ∀ x, ¬ servable w o x) (rest : List Occasion) :
    keepOccasion o rest = if o.cmd.isSome then o :: rest else rest := by
  have hev : o.ev = 0 := evWord_eq_zero fun e => Bool.eq_false_iff.mpr (h (.ev e))
  unfold keepOccasion Occasion.spent
  rw [hev]
  cases o.cmd <;> rfl

/-- Occasions without anything that may be served are passed over; those in which a host request waits stay. -/
theorem takeNext_append (w : Bool) (older l : List Occasion) (h : ∀ p ∈ older, ∀ x, ¬ servable w p x) :
    takeNext w (older ++ l) = (takeNext w l).map fun (t, rest) => (t, older.filter (fun p => p.cmd.isSome) ++ rest) := by
  induction older with
  | nil => simp
  | cons p older ih =>
    have hp := h p List.mem_cons_self
    rw [List.cons_append, takeNext_cons, Occasion.choose_eq_none hp, ih fun q hq => h q (List.mem_cons_of_mem p hq)]
    cases takeNext w l with
    | none => rfl
    | some x =>
      obtain ⟨t, rest⟩ := x
      simp only [Option.map_some, keepOccasion_of_unservable hp, List.filter_cons]
      split <;> rfl

/-- With nothing that may be served nothing is taken. -/
theorem takeNext_eq_none {w : Bool} {l : List Occasion} (h : ∀ p ∈ l, ∀ x, ¬ servable w p x) : takeNext w l = none := by
  simpa [takeNext] using takeNext_append w l [] h

/-- What an occasion keeps. -/
theorem Occasion.leftOver_without (o : Occasion) (src : Source) : leftOver o (o.without src) src := by
  cases src with
  | host => exact ⟨rfl, rfl, rfl⟩
  | ev e =>
    refine ⟨rfl, rfl, fun f => ?_⟩
    unfold Occasion.without
    dsimp only
    generalize o.ev = w
    revert w
    cases e <;> cases f <;> decide

end Sys2Proof.Machine
end

