-- ==== Sys2Proof/Laws/Run.lean ====
section
/-! SUPPORT. Runs: one step more, and the induction over the states a run reaches. -/

namespace Sys2Proof.Machine

@[simp] theorem runSteps_zero (s : State) : runSteps 0 s = .next s := rfl

theorem runSteps_succ {k : Nat} {s t u : State} (hs : step s = .next t) (hr : runSteps k t = .next u) :
    runSteps (k + 1) s = .next u := by
  simp [runSteps, hs, hr]

/-- A run of `k + 1` steps that goes on is a step that goes on and a run of `k`. -/
theorem runSteps_cases {k : Nat} {s u : State} (h : runSteps (k + 1) s = .next u) :
    ∃ t, step s = .next t ∧ runSteps k t = .next u := by
  unfold runSteps at h
  split at h
  · exact ⟨_, ‹_›, h⟩
  · cases h
  · cases h

/-- What holds before a run and is kept by every step holds after it. -/
theorem runSteps_induction {P : State → Prop} (keep : ∀ s t, P s → step s = .next t → P t) :
    ∀ (k : Nat) (s u : State), P s → runSteps k s = .next u → P u
  | 0, s, u, hs, h => by cases h; exact hs
  | k + 1, s, u, hs, h => by
    obtain ⟨t, ht, hu⟩ := runSteps_cases h
    exact runSteps_induction keep k t u (keep s t hs ht) hu

/-- What holds after power-on, whatever is presented, and is kept by every step holds of every state a run reaches. -/
theorem reachable_induction {P : State → Prop} {p : Params} (start : ∀ presented, P (State.powerOn p presented))
    (keep : ∀ s t, P s → step s = .next t → P t) {t : State} (h : Reachable p t) : P t := by
  obtain ⟨presented, k, h⟩ := h
  exact runSteps_induction keep k _ t (start presented) h

end Sys2Proof.Machine
end

