-- ==== Sys2Proof/Laws/Sine.lean ====
section
/-! SUPPORT. The constraints of R8 on the sine table, as facts about its entries. -/

namespace Sys2Proof.Machine

theorem risesFrom_iff (a : Nat) (l : List Nat) : risesFrom a l = true ↔ (a :: l).IsChain (· ≤ ·) := by
  induction l generalizing a with
  | nil => simp [risesFrom]
  | cons b rest ih => rw [risesFrom, Bool.and_eq_true, decide_eq_true_iff, ih, List.isChain_cons_cons]

/-- All that the check on a table says. -/
theorem tableWf_iff (p : Params) :
    p.tableWf = true ↔
      1 ≤ p.tableBits ∧ p.tableBits ≤ 29 ∧ p.sineRom.length = p.tableSize + 1 ∧ p.sineRom.getD 0 0 = 0 ∧
        p.sineRom.getD p.tableSize 0 = p.one ∧ p.sineRom.Pairwise (· ≤ ·) := by
  have h : risesFrom 0 p.sineRom = true ↔ p.sineRom.Pairwise (· ≤ ·) := by
    rw [risesFrom_iff, List.isChain_iff_pairwise, List.pairwise_cons]
    simp
  simp only [Params.tableWf, Bool.and_eq_true, decide_eq_true_iff, h, and_assoc]

theorem tableIndexOf_lt (bits : Nat) (a : BitVec 32) (h : bits ≤ 30) : tableIndexOf bits a < 2 ^ bits := by
  rw [tableIndexOf, Nat.div_lt_iff_lt_mul (Nat.two_pow_pos _), ← pow_add, Nat.add_sub_cancel' h]
  exact Nat.mod_lt _ (Nat.two_pow_pos 30)

theorem fractionOf_lt (bits : Nat) (a : BitVec 32) : fractionOf bits a < 2 ^ (30 - bits) :=
  Nat.mod_lt _ (Nat.two_pow_pos _)

/-- An interpolated value lies between the two entries, whichever is greater. -/
theorem interpolate_between (lo hi : Int) (frac bits : Nat) (h : frac < 2 ^ (30 - bits)) :
    min lo hi ≤ interpolate lo hi frac bits ∧ interpolate lo hi frac bits ≤ max lo hi := by
  unfold interpolate
  have hp : (0 : Int) < 2 ^ (30 - bits) := by positivity
  have hf : (frac : Int) < 2 ^ (30 - bits) := by exact_mod_cast h
  have hf0 : (0 : Int) ≤ frac := Int.natCast_nonneg _
  generalize (2 : Int) ^ (30 - bits) = n at *
  rcases le_total lo hi with hl | hl
  · have h1 : (hi - lo) * frac / n ≤ hi - lo := Int.ediv_le_of_le_mul hp (by nlinarith)
    have h2 : 0 ≤ (hi - lo) * frac / n := Int.ediv_nonneg (by nlinarith) hp.le
    rw [min_eq_left hl, max_eq_right hl]
    constructor <;> linarith
  · have h1 : hi - lo ≤ (hi - lo) * frac / n := (Int.le_ediv_iff_mul_le hp).mpr (by nlinarith)
    have h2 : (hi - lo) * frac / n ≤ 0 := Int.ediv_nonpos_of_nonpos_of_neg (by nlinarith) hp
    rw [min_eq_right hl, max_eq_left hl]
    constructor <;> linarith

end Sys2Proof.Machine
end

