-- ==== Sys2Proof/Tests/Slice0.lean ====
section
/-! SUPPORT. Tests: the words of spec/95_test_vectors.md and of the encoding rules, the checks on ill-formed input, one
witness per statement that has hypotheses, and vectors of one step each. -/

namespace Sys2Proof.Tests

open Sys2Proof.Machine

/-! ### Decoding: one word per row, written out from R101 and R104 to R109 -/

theorem test_decode_wrOpMode : decodeTableWord 48 0x10000000003 = some (.wrOpMode 3) := by decide
theorem test_decode_wrCtrlMode : decodeTableWord 48 0x10100000002 = some (.wrCtrlMode 2) := by decide
theorem test_decode_wrFreq : decodeTableWord 48 0x10201312D00 = some (.wrFreq 20000000) := by decide
theorem test_decode_wrDeadtime : decodeTableWord 48 0x1030000C34F = some (.wrDeadtime 49999) := by decide
theorem test_decode_wrMinDuty : decodeTableWord 48 0x10400007D70 = some (.wrMinDuty 32112) := by decide
theorem test_decode_wrPh0Ls : decodeTableWord 48 0x1080000031E = some (.wrPh0Ls 0x31E) := by decide
theorem test_decode_wrPh0Hs : decodeTableWord 48 0x10900000116 = some (.wrPh0Hs 0x116) := by decide
theorem test_decode_wrPh1Ls : decodeTableWord 48 0x10AFFFFFFFF = some (.wrPh1Ls 0xFFFFFFFF) := by decide
theorem test_decode_wrPh1Hs : decodeTableWord 48 0x10B00000200 = some (.wrPh1Hs 0x200) := by decide
theorem test_decode_wrPh2Ls : decodeTableWord 48 0x10C80000001 = some (.wrPh2Ls 0x80000001) := by decide
theorem test_decode_wrPh2Hs : decodeTableWord 48 0x10D00000011 = some (.wrPh2Hs 17) := by decide
theorem test_decode_wrDuty0 : decodeTableWord 48 0x11000010000 = some (.wrDuty0 65536) := by decide
theorem test_decode_wrDuty1 : decodeTableWord 48 0x11100010001 = some (.wrDuty1 65537) := by decide
theorem test_decode_wrDuty2 : decodeTableWord 48 0x11200004000 = some (.wrDuty2 16384) := by decide
theorem test_decode_wrModIndex : decodeTableWord 48 0x1130000CCCD = some (.wrModIndex 52429) := by decide
theorem test_decode_wrAngle : decodeTableWord 48 0x114FFFEA070 = some (.wrAngle (-90000)) := by decide
theorem test_decode_wrSpeed : decodeTableWord 48 0x115FFB3B4C0 = some (.wrSpeed (-5000000)) := by decide
theorem test_decode_wrTrigSource : decodeTableWord 48 0x11800000001 = some (.wrTrigSource 1) := by decide
theorem test_decode_wrTrigDelay : decodeTableWord 48 0x11900000064 = some (.wrTrigDelay 100) := by decide
theorem test_decode_wrTimerInterval : decodeTableWord 48 0x11A000F4240 = some (.wrTimerInterval 1000000) := by decide
theorem test_decode_wrBurstType : decodeTableWord 48 0x11C00000002 = some (.wrBurstType 2) := by decide
theorem test_decode_wrBurstCount : decodeTableWord 48 0x11D00000003 = some (.wrBurstCount 3) := by decide
theorem test_decode_wrBurstDuration : decodeTableWord 48 0x11E000000FA = some (.wrBurstDuration 250) := by decide
theorem test_decode_rdOpMode : decodeTableWord 48 0x20000000000 = some .rdOpMode := by decide
theorem test_decode_rdCtrlMode : decodeTableWord 48 0x20100000000 = some .rdCtrlMode := by decide
theorem test_decode_rdFreq : decodeTableWord 48 0x20200000000 = some .rdFreq := by decide
theorem test_decode_rdDeadtime : decodeTableWord 48 0x20300000000 = some .rdDeadtime := by decide
theorem test_decode_rdMinDuty : decodeTableWord 48 0x20400000000 = some .rdMinDuty := by decide
theorem test_decode_rdPh0Ls : decodeTableWord 48 0x20800000000 = some .rdPh0Ls := by decide
theorem test_decode_rdPh0Hs : decodeTableWord 48 0x20900000000 = some .rdPh0Hs := by decide
theorem test_decode_rdPh1Ls : decodeTableWord 48 0x20A00000000 = some .rdPh1Ls := by decide
theorem test_decode_rdPh1Hs : decodeTableWord 48 0x20B00000000 = some .rdPh1Hs := by decide
theorem test_decode_rdPh2Ls : decodeTableWord 48 0x20C00000000 = some .rdPh2Ls := by decide
theorem test_decode_rdPh2Hs : decodeTableWord 48 0x20D00000000 = some .rdPh2Hs := by decide
theorem test_decode_rdDuty0 : decodeTableWord 48 0x21000000000 = some .rdDuty0 := by decide
theorem test_decode_rdDuty1 : decodeTableWord 48 0x21100000000 = some .rdDuty1 := by decide
theorem test_decode_rdDuty2 : decodeTableWord 48 0x21200000000 = some .rdDuty2 := by decide
theorem test_decode_rdModIndex : decodeTableWord 48 0x21300000000 = some .rdModIndex := by decide
theorem test_decode_rdAngle : decodeTableWord 48 0x21400000000 = some .rdAngle := by decide
theorem test_decode_rdSpeed : decodeTableWord 48 0x21500000000 = some .rdSpeed := by decide
theorem test_decode_rdTrigSource : decodeTableWord 48 0x21800000000 = some .rdTrigSource := by decide
theorem test_decode_rdTrigDelay : decodeTableWord 48 0x21900000000 = some .rdTrigDelay := by decide
theorem test_decode_rdTimerInterval : decodeTableWord 48 0x21A00000000 = some .rdTimerInterval := by decide
theorem test_decode_rdBurstType : decodeTableWord 48 0x21C00000000 = some .rdBurstType := by decide
theorem test_decode_rdBurstCount : decodeTableWord 48 0x21D00000000 = some .rdBurstCount := by decide
theorem test_decode_rdBurstDuration : decodeTableWord 48 0x21E00000000 = some .rdBurstDuration := by decide
theorem test_decode_rdStatus : decodeTableWord 48 0x22000000000 = some .rdStatus := by decide
theorem test_decode_trigImmediate : decodeTableWord 48 0x30000000000 = some .trigImmediate := by decide
theorem test_decode_trigInternalTimer : decodeTableWord 48 0x30000000001 = some .trigInternalTimer := by decide
theorem test_decode_trigBus : decodeTableWord 48 0x30000000002 = some .trigBus := by decide
theorem test_decode_abort : decodeTableWord 48 0x40000000000 = some .abort := by decide
theorem test_decode_rstdef : decodeTableWord 48 0x50000000000 = some .rstdef := by decide
theorem test_decode_cycle : decodeTableWord 8 0x01 = some .cycle := by decide
theorem test_decode_poll : decodeTableWord 8 0x02 = some .poll := by decide
theorem test_decode_dlyexp : decodeTableWord 8 0x04 = some .dlyexp := by decide
theorem test_decode_itfire : decodeTableWord 8 0x08 = some .itfire := by decide
theorem test_decode_rstdone : decodeTableWord 8 0x10 = some .rstdone := by decide

/-- V2.7, the rows answered ILLEGAL: no operation. -/
theorem test_rejects_the_illegal_rows :
    [0x12000000000, 0x10500000000, 0x20700000000, 0x20200000001, 0x00000000000, 0x60000000000, 0x30000000003,
     0x30100000000, 0x40000000001, 0x50100000000].map (decodeTableWord 48) = List.replicate 10 none := by decide

/-- R109: an event word with no strobe or with two is not one operation. -/
theorem test_rejects_event_words_without_one_strobe :
    [0x00, 0x03, 0x1F].map (decodeTableWord 8) = List.replicate 3 none := by decide

/-! ### Ill-formed input: one term per check, refused by it -/

theorem test_refuses_a_bit_above_the_command_format : rawWordWf 48 0x100000000000 = false := by decide
theorem test_refuses_a_bit_above_the_event_format : rawWordWf 8 0x20 = false := by decide
theorem test_refuses_a_word_of_another_length : rawWordWf 32 0 = false := by decide
theorem test_accepts_the_longest_words : rawWordWf 48 0xFFFFFFFFFFF = true ∧ rawWordWf 8 0x1F = true := by decide
theorem test_refuses_no_clock : Params.platformWf { Params.p0 with clkHz := 0 } = false := by decide
theorem test_refuses_no_channels : Params.platformWf { Params.p0 with chRepeat := 0 } = false := by decide
theorem test_refuses_no_gpios : Params.platformWf { Params.p0 with numGpio := 0 } = false := by decide
theorem test_refuses_too_many_gpios : Params.platformWf { Params.p0 with numGpio := 257 } = false := by decide
theorem test_refuses_a_default_gpio_that_does_not_exist : Params.slotsWf { Params.p0 with numGpio := 5 } = false := by
  decide
theorem test_refuses_default_slots_on_one_channel : Params.slotsWf { Params.p0 with chRepeat := 4 } = false := by
  decide
theorem test_refuses_an_illegal_default_frequency : Params.carrierWf { Params.p0 with defFreq := 3740 } = false := by
  decide
theorem test_refuses_a_default_deadtime_without_margin :
    Params.carrierWf { Params.p0 with defDeadtime := 50000 } = false := by decide
theorem test_refuses_a_default_speed_over_the_bound : Params.carrierWf { Params.p0 with defSpeed := 5000001 } = false := by
  decide
theorem test_refuses_a_default_duty_over_one : Params.runtimeWf { Params.p0 with defDuty := ⟨65537, 0, 0⟩ } = false := by
  decide
theorem test_refuses_a_default_duty_over_one_in_any_phase :
    Params.runtimeWf { Params.p0 with defDuty := ⟨0, 65537, 0⟩ } = false ∧
    Params.runtimeWf { Params.p0 with defDuty := ⟨0, 0, 65537⟩ } = false := by decide
theorem test_refuses_a_default_index_over_one : Params.runtimeWf { Params.p0 with defModIndex := 65537 } = false := by
  decide
theorem test_refuses_a_default_minimum_duty_of_one_half :
    Params.carrierWf { Params.p0 with defDeadtime := 0, defMinDuty := 32768 } = false := by decide
theorem test_refuses_a_default_angle_of_a_turn : Params.runtimeWf { Params.p0 with defAngle := 360000 } = false := by
  decide

theorem test_accepts_the_decided_table : Params.p0.tableWf = true := by decide +kernel
theorem test_refuses_a_table_without_index_bits :
    Params.tableWf { Params.p0 with tableBits := 0, ampBits := 0, sineRows := [[0, 1]] } = false := by decide +kernel
theorem test_refuses_a_table_with_thirty_index_bits : Params.tableWf { Params.p0 with tableBits := 30 } = false := by
  decide +kernel
theorem test_refuses_a_table_of_another_length :
    Params.tableWf { Params.p0 with sineRows := Config.sineRows ++ [[65536]] } = false := by decide +kernel
theorem test_refuses_a_table_that_does_not_begin_at_zero :
    Params.tableWf { Params.p0 with tableBits := 1, ampBits := 2, sineRows := [[1, 3, 4]] } = false := by decide +kernel
theorem test_refuses_a_table_that_does_not_end_at_one :
    Params.tableWf { Params.p0 with tableBits := 1, ampBits := 2, sineRows := [[0, 3, 3]] } = false := by decide +kernel
theorem test_refuses_a_table_that_falls :
    Params.tableWf { Params.p0 with tableBits := 1, ampBits := 2, sineRows := [[0, 5, 4]] } = false := by decide +kernel

/-! ### Small states -/

/-- A smaller table with a finer amplitude scale, for the statements over every table of R8. -/
def otherTable : Params := { Params.p0 with tableBits := 1, ampBits := 20, sineRows := [[0, 741455, 1048576]] }

/-- The reset state with a mode, a control mode and both flags of a start set. -/
def ready (m : OpMode) (c : CtrlMode) : State :=
  { State.reset with
    stat        := { State.reset.stat with opMode := m, ctrlMode := c }
    hwDirty     := true
    trigPending := true }

/-- The state one `POLL` later. -/
def started (m : OpMode) (c : CtrlMode) : State :=
  match exec .poll (ready m c) with
  | .next t => t
  | _ => State.reset

/-- The state of an outcome. -/
def after (x : Out) : State :=
  match x with
  | .next t => t
  | _ => State.reset

/-- IDLE with the derived parameters compiled and the trigger set. -/
def compiledIdle (m : OpMode) (c : CtrlMode) : State :=
  { (ready m c).reconfigured with hwDirty := false }

/-- The host waits in `reset_to_defaults()`. -/
def waiting : State := { State.reset with rstWait := true }

/-- The reset state with just this host request presented. -/
def presentsReq (req : HostReq) : State :=
  { State.reset with sched := [{ cmd := some { req := req, outEn := false }, ev := 0, arb := [] }] }

/-- The reset state with just this command word presented. -/
def presents (w : CmdWord) : State := presentsReq (.word w)

/-- The outcome is a next state. -/
def goesOn : Out → Bool
  | .next _ => true
  | _ => false

theorem next_after {x : Out} (h : goesOn x = true) : x = .next (after x) := by
  cases x with
  | next t => rfl
  | fault f => cases h
  | refused r => cases h

/-- The reset state with `state` set to RUNNING by hand, for the guard of the setters. -/
def busy : State := { State.reset with eng := { Engine.atReset with run := .running } }

/-! ### Vectors of spec/95_test_vectors.md, one operation each -/

/-- V2.1. -/
theorem test_sine_vectors :
    [0x00000000, 0x00400000, 0x00200000, 0x15555555, 0x20000000, 0x3FFFFFFF, 0x40000000, 0x40000001, 0x55555555,
     0x6AAAAAAB, 0x7FFFFFFF, 0x80000000, 0x80400000, 0xAAAAAAAB, 0xC0000000, 0xC0000001, 0xFFFFFFFF, 0x12345678,
     0xDEADBEEF].map (fun a => sine Params.p0 (BitVec.ofNat 32 a)) =
    [0, 402, 201, 32767, 46341, 65535, 65536, 65535, 56755, 32767, 0, 0, -402, -56755, -65536, -65535, 0, 28316,
     -47819] := by decide

/-- R134, R135 for another table, worked by hand: its entries at 45 and 90 degrees, and half way between 0 and 45. -/
theorem test_sine_of_another_table :
    otherTable.wf = true ∧
    [0x20000000, 0x40000000, 0x10000000, 0xD0000000].map (fun a => sine otherTable (BitVec.ofNat 32 a)) =
      [741455, 1048576, 370727, -895015] := by decide +kernel

/-- V2.1, the checks of R133 on the table. -/
theorem test_rom_checks :
    Config.sineRom.length = 257 ∧ Config.sineRom.sum = 10713444 ∧ Config.sineRom.foldl (· ^^^ ·) 0 = 82266 ∧
    (Config.sineRom.mapIdx fun i e => i * e).sum = 1749079026 ∧ risesFrom 0 Config.sineRom = true := by decide +kernel

/-- V2.2: the compiled parameters of three inputs, the defaults, a tie rounded up and the lowest legal frequency. -/
theorem test_compiler_vectors :
    [(10000000, 1000, 0), (20000000, 500, 3277), (3741, 0, 0)].map (fun x =>
      let mc := maxCounterOf 125000000 x.1
      [dividerOf 125000000 x.1, mc, dtTotalOf x.2.1 x.1 mc, clipLoOf x.2.2 x.2.1 x.1]) =
    [[1, 6250, 125, 85899346], [1, 3125, 63, 515422290], [255, 65517, 0, 0]] := by decide

/-- V2.2 and V2.4 row 3: `POLL` compiles before it starts; the levels are those of row A's machine at half duty. -/
theorem test_poll_compiles_and_starts :
    (started .ph1 .directDuty).drv.clipHi = 8504035246 ∧ (started .ph1 .directDuty).eng.ticksPerCycle = 12500 ∧
    (started .ph1 .directDuty).drv.enableMask = 3 ∧ (started .ph1 .directDuty).eng.run = .running ∧
    (started .ph1 .directDuty).ch.l0.level = 3063 ∧ (started .ph1 .directDuty).ch.h0.level = 3188 ∧
    (started .ph1 .directDuty).ch.h0.polInv = true ∧ (started .ph1 .directDuty).ch.l1.enabled = false := by decide

/-- V2.5 row G, the priming pass advances the accumulator (D12). -/
theorem test_priming_advances_the_phase :
    (after (exec .poll { ready .ph3 .modSpeed with
      runtime := { State.reset.runtime with speed := 12345 } })).eng.phaseAcc = 0x0050E779 := by decide

/-- V2.5 row F: SPEED -500000 in 3-PHASE, the negative delta and its three duties. -/
theorem test_modulated_duties :
    (after (exec .poll { ready .ph3 .modSpeed with
      runtime := { State.reset.runtime with speed := -500000, modIndex := 65536 } })).eng.dutyActive =
    ⟨2967797760, 8496021504, 1421082624⟩ := by decide

/-- V2.5 row D: duties 0 and 65536 are clipped; the lowest and highest level pairs. -/
theorem test_clipped_levels :
    let t := after (exec .poll { ready .ph3 .directDuty with
      runtime := { State.reset.runtime with duty := ⟨0, 32768, 65536⟩ } })
    t.ch.l0.level = 0 ∧ t.ch.h0.level = 125 ∧ t.ch.l2.level = 6125 ∧ t.ch.h2.level = 6250 := by decide

/-- V2.5: the negative level of R252. -/
theorem test_negative_level :
    let t := after (exec .poll { ready .ph1 .directDuty with
      stat    := { (ready .ph1 .directDuty).stat with freq := 444334, deadtime := 3114 }
      runtime := { State.reset.runtime with duty := ⟨0, 0, 0⟩ } })
    t.ch.l0.level = -1 ∧ t.ch.h0.level = 129 := by decide

/-- V2.6: NCYCLES with count 0 stops at the first `CYCLE`, and `ABORT` stops at the next one. -/
theorem test_cycle_stops :
    (after (exec .cycle { started .ph1 .directDuty with
      burst := { State.reset.burst with kind := .ncycles, count := 0 } })).eng.run = .idle ∧
    (after (exec .cycle { started .ph1 .directDuty with running := false })).irqEn = false := by decide

/-- V2.6: a computing `CYCLE` of a DURATION burst adds the ticks of one cycle. -/
theorem test_cycle_counts_ticks :
    (after (exec .cycle { started .ph1 .directDuty with
      burst := { State.reset.burst with kind := .duration }
      eng   := { (started .ph1 .directDuty).eng with burstTimeout := 1 } })).eng.burstTicks = 12500 := by decide

/-- V2.7: the responses of the setter rows, status in bits 33:32. -/
theorem test_setter_rows :
    [Instr.wrOpMode 3, .wrOpMode 4, .wrCtrlMode 3, .wrFreq 0, .wrFreq 3740, .wrFreq 3741, .wrSpeed 5000001,
     .wrSpeed (-5000000), .wrDeadtime 50000, .wrDeadtime 49999, .wrMinDuty 32768, .wrMinDuty 32767, .wrMinDuty 32112,
     .wrMinDuty 32113, .wrPh0Hs 16, .wrPh0Hs 17, .wrPh0Hs 0x31E, .wrPh0Hs 0x116, .wrPh0Hs 0x400, .wrDuty0 65536,
     .wrDuty0 65537, .wrModIndex 65537, .wrTrigSource 3, .wrBurstType 3].map
      (fun i => (after (exec i State.reset)).rsp) =
    [0, 2, 2, 2, 2, 0, 1, 0, 2, 0, 2, 2, 0, 2, 1, 0, 2, 0, 2, 0, 2, 2, 2, 2].map (fun c => answer c 0) := by decide

/-- V2.7: the angles stored. -/
theorem test_angle_rows :
    [0xFFFFFFFF, 360000, 0x7FFFFFFF, 0x80000000].map (fun v => wrapAngle (BitVec.ofNat 32 v)) =
      [359999, 0, 83647, 276352] := by decide

/-- V2.7: reads after reset and in RUNNING. -/
theorem test_read_rows :
    (after (exec .rdTrigSource State.reset)).rsp = answer 0 2 ∧
    (after (exec .rdFreq State.reset)).rsp = answer 0 10000000 ∧
    (after (exec .rdStatus (started .ph1 .directDuty))).rsp = answer 0 3 := by decide

/-- V2.3 rows 1, 2, 3 and 5. -/
theorem test_coordinator_rows :
    (after (exec .trigBus State.reset)).delayPending = true ∧
    (after (exec .trigInternalTimer State.reset)).delayPending = false ∧
    (after (exec .dlyexp { State.reset with delayPending := true })).trigPending = true ∧
    (after (exec (.wrTrigSource 1) State.reset)).itimerArmed = true := by decide

/-- P5 step 7: `RSTDONE` restores the defaults. -/
theorem test_rstdone_restores :
    (after (exec .rstdone { waiting with stat := { State.reset.stat with deadtime := 500 } })).stat =
      State.reset.stat := by decide

/-- A step runs the word `withFetchWord` presents. -/
theorem test_step_runs_the_fetched_word :
    (after (step (State.reset.withFetchWord 48 0x10000000003))).stat.opMode = .ph3 ∧
    (after (step (waiting.withFetchWord 8 0x10))).rstWait = false := by decide

/-! ### Witnesses: for each statement with hypotheses, a state and operands that meet them -/

/-- A command word, and the store of the same word on the bus. -/
theorem test_meets_StepRunsThePresentedCommand :
    ∀ req ∈ [HostReq.word 0x10000000003, .busWrite 0 [3, 0, 0, 0]],
      (presentsReq req).rstWait = false ∧
      (presentsReq req).sched = { cmd := some { req := req, outEn := false }, ev := 0, arb := [] } :: [] ∧
      hostReqWord req = some 0x10000000003 ∧ decode (.cmd 0x10000000003) = .ok (.wrOpMode 3) := by decide

/-- Also while the host waits. -/
theorem test_meets_StepRunsThePresentedEvent :
    ({ waiting with sched := [{ cmd := none, ev := 0x10, arb := [] }] } : State).sched =
      { cmd := none, ev := 0x10, arb := [] } :: [] ∧
    decode (.ev 0x10) = .ok .rstdone := ⟨rfl, by decide⟩

/-- A host command and two events at once, in two orders. -/
def threeAtOnce (arb : List Source) : Occasion :=
  { cmd := some { req := .word 0x40000000000, outEn := true }, ev := 0x03, arb := arb }

/-- A host request alone, a word that is `WR DUTY0, 0`. -/
def requestAlone : Occasion := { cmd := some { req := .word 0x11000000000, outEn := true }, ev := 0, arb := [] }

/-- The completed orders of the four cases below. -/
def everySource : List Source := [.host, .ev .cycle, .ev .poll, .ev .dlyexp, .ev .itfire, .ev .rstdone]

/-- The second of three: the order still names the `POLL` already served, then the host. -/
theorem test_meets_TheFirstInOrderIsServedFirst :
    let o : Occasion := { threeAtOnce [.ev .poll, .host] with ev := 0x01 }
    ({ State.reset with sched := [o] } : State).sched = [] ++ o :: [] ∧
    o.arb ++ everySource = [.ev .poll] ++ .host :: everySource ∧ servable State.reset.rstWait o .host ∧
    (∀ x ∈ [Source.ev .poll], ¬ servable State.reset.rstWait o x) ∧
    o.cmd = some { req := .word 0x40000000000, outEn := true } ∧
    hostReqWord (.word 0x40000000000) = some 0x40000000000 ∧ decode (.cmd 0x40000000000) = .ok .abort := by
  refine ⟨rfl, rfl, by simp [servable, threeAtOnce, State.reset, State.resetWith], ?_, rfl, rfl, by decide⟩
  simp [servable, Event.bit]

/-- While the host waits: `RSTDONE` behind an older request, first in the completed order of what may be served. -/
theorem test_meets_TheFirstInOrderIsServedFirst_while_waiting :
    let o : Occasion := { cmd := none, ev := 0x10, arb := [] }
    ({ waiting with sched := [requestAlone, o] } : State).sched = [requestAlone] ++ o :: [] ∧
    (∀ p ∈ [requestAlone], ∀ x, ¬ servable waiting.rstWait p x) ∧
    o.arb ++ everySource = [.host, .ev .cycle, .ev .poll, .ev .dlyexp, .ev .itfire] ++ .ev .rstdone :: [] ∧
    servable waiting.rstWait o (.ev .rstdone) ∧
    (∀ x ∈ [Source.host, .ev .cycle, .ev .poll, .ev .dlyexp, .ev .itfire], ¬ servable waiting.rstWait o x) := by
  refine ⟨rfl, ?_, rfl, by simp [servable, Event.bit], by simp [servable, Event.bit]⟩
  intro p hp x
  rw [List.mem_singleton.mp hp]
  cases x <;> simp [servable, waiting, requestAlone]

/-- A request that is no operation, first in the order with two events beside it. -/
theorem test_meets_TheFirstInOrderIsServedFirst_malformed :
    let o : Occasion := { threeAtOnce [.host] with cmd := some { req := .busRead 6 4, outEn := true } }
    o.arb ++ everySource = [] ++ .host :: everySource ∧ servable State.reset.rstWait o .host ∧
    malformed (.busRead 6 4) :=
  ⟨rfl, ⟨rfl, by simp⟩, .inr (.inr ⟨6, 4, rfl, .inl (by decide)⟩)⟩

/-- The state after two steps from a presented occasion. -/
def afterTwo (s : State) : State := after (step (after (step s)))

/-- R349: of three operations at once the order decides which is third. -/
theorem test_order_of_three :
    (afterTwo { State.reset with sched := [threeAtOnce [.ev .poll, .host]] }).sched =
      [{ cmd := none, ev := 0x01, arb := [.ev .poll, .host] }] ∧
    (afterTwo { State.reset with sched := [threeAtOnce [.ev .poll, .ev .cycle]] }).sched =
      [{ threeAtOnce [.ev .poll, .ev .cycle] with ev := 0 }] := by decide

/-- An event behind a waiting request is served, then the request; a malformed request leaves the events beside it. -/
theorem test_ports_with_several :
    (after (step { waiting with sched := [requestAlone, { cmd := none, ev := 0x10, arb := [] }] })).rstWait = false ∧
    (after (step { waiting with sched := [requestAlone, { cmd := none, ev := 0x10, arb := [] }] })).sched =
      [requestAlone] ∧
    (afterTwo { waiting with sched := [requestAlone, { cmd := none, ev := 0x10, arb := [] }] }).runtime.duty.v0 = 0 ∧
    (let o := { threeAtOnce [.host] with cmd := some { req := .busRead 6 4, outEn := true } }
     (after (step { State.reset with sched := [o] })).rsp = answer 3 0 ∧
     (after (step { State.reset with sched := [o] })).sched = [{ o with cmd := none }]) := by decide

/-- A word that is no row, a misaligned access, a store of two bytes, a load of eight, the first byte beyond the space,
a store to `STATUS`, the word 0x05 that holds no register. -/
theorem test_meets_MalformedRequestsAnswerIllegal :
    State.reset.rstWait = false ∧ decode (.cmd 0x30000000003) = .error .trigReservedData ∧
    (6 % 4 ≠ 0) ∧ ([1, 2] : List Byte).length ≠ 4 ∧ (8 ≠ 4) ∧ 1024 ≤ 1024 ∧ 128 = 4 * 0x20 ∧
    (∀ req ∈ [HostReq.word 0x30000000003, .busWrite 6 [1, 2, 3, 4], .busWrite 8 [1, 2], .busRead 8 8,
        .busRead 1024 4, .busWrite 128 [0, 0, 0, 0], .busRead 20 4],
      (presentsReq req).rstWait = false ∧ (after (step (presentsReq req))).rsp = answer 3 0) := by decide

/-- The register space leaves the word 0x05 free. -/
theorem test_no_register_at_word_5 : ∀ r : Reg, 4 * r.addr.toNat ≠ 20 := by intro r; cases r <;> decide

/-- A store and a load of `FREQ` on the bus. -/
theorem test_meets_ByteBusAccessesAreWordCommands :
    State.reset.rstWait = false ∧
    (after (step (presentsReq (.busWrite 8 [0, 0x2D, 0x31, 1])))).stat.freq = 20000000 ∧
    (after (step (presentsReq (.busRead 8 4)))).rsp = answer 0 10000000 := by decide

/-- Nothing presented, and only a host that waits. -/
theorem test_meets_NothingPresentedChangesNothing :
    State.reset.sched = [] ∧
    ∀ o ∈ ({ waiting with sched := [requestAlone] } : State).sched, ∀ x, ¬ servable waiting.rstWait o x := by
  refine ⟨rfl, fun o ho x => ?_⟩
  rw [List.mem_singleton.mp ho]
  cases x <;> simp [servable, waiting, requestAlone]

/-- The host waits, and presents a command beside an event. -/
def waitingPresents : State := { waiting with sched := [threeAtOnce []] }

theorem test_meets_TheWaitingHostIsNotServed :
    waitingPresents.rstWait = true ∧ step waitingPresents = .next (after (step waitingPresents)) :=
  ⟨rfl, next_after (by decide)⟩

/-- Both cases occur: a request taken, and an event served with the request left. -/
theorem test_meets_HostRequestsAreServedInOrder :
    step (presents 0x40000000000) = .next (after (step (presents 0x40000000000))) ∧
    step waitingPresents = .next (after (step waitingPresents)) :=
  ⟨next_after (by decide), next_after (by decide)⟩

theorem test_meets_OperationsKeepParametersAndPorts :
    exec (.wrFreq 20000000) State.reset = .next (after (exec (.wrFreq 20000000) State.reset)) :=
  next_after (by decide)

theorem test_meets_ResetStateIsLegal : Params.p0.wf = true := by decide +kernel

/-- Values on both sides of each bound of `WR OP_MODE`, and the mode 1-PHASE under a modulating control mode. -/
theorem test_meets_WrOpModeStoresOrRefuses :
    State.reset.rstWait = false ∧ busy.rstWait = false ∧ busy.eng.run = .running ∧ State.reset.eng.run = .idle ∧
    3 < (4 : Word).toNat ∧ (1 : Word).toNat = 1 ∧ (ready .off .modAngle).stat.ctrlMode ≠ .directDuty ∧
    (ready .off .modAngle).eng.run = .idle ∧ (ready .off .modAngle).rstWait = false ∧
    (3 : Word).toNat = OpMode.ph3.code ∧ ((3 : Word).toNat = 1 → State.reset.stat.ctrlMode = .directDuty) ∧
    (1 : Word).toNat = OpMode.ph1.code ∧ State.reset.stat.ctrlMode = .directDuty := by decide

theorem test_meets_WrCtrlModeStoresOrRefuses :
    busy.rstWait = false ∧ busy.eng.run = .running ∧ State.reset.rstWait = false ∧ State.reset.eng.run = .idle ∧
    2 < (3 : Word).toNat ∧ (2 : Word).toNat ≤ 2 ∧ (2 : Word).toNat ≠ 0 ∧
    (ready .ph1 .directDuty).stat.opMode = .ph1 ∧ (ready .ph1 .directDuty).eng.run = .idle ∧
    (2 : Word).toNat = CtrlMode.modSpeed.code ∧ (State.reset.stat.opMode = .ph1 → (2 : Word).toNat = 0) ∧
    (0 : Word).toNat = CtrlMode.directDuty.code := by decide

/-- The five cases of `WR FREQ`, at the values of V2.7: RUNNING, 3740, 3741, 500000000 (no margin left at 1 us) and
9999999 under SPEED 5000000. -/
theorem test_meets_WrFreqStoresOrRefuses :
    busy.eng.run = .running ∧ State.reset.eng.run = .idle ∧ State.reset.rstWait = false ∧
    legalF 125000000 3740 = false ∧ legalF 125000000 3741 = true ∧ inv4 3741 1000 0 = true ∧ inv5 0 3741 = true ∧
    legalF 125000000 500000000 = true ∧ inv4 500000000 1000 0 = false ∧
    legalF 125000000 9999999 = true ∧ inv4 9999999 1000 0 = true ∧ inv5 5000000 9999999 = false ∧
    inv5 5000000 10000000 = true := by decide

/-- The margin reaches one half at 50000 ns. -/
theorem test_meets_WrDeadtimeStoresOrRefuses :
    busy.eng.run = .running ∧ State.reset.eng.run = .idle ∧ State.reset.rstWait = false ∧
    ¬ (2 * State.reset.stat.minDuty.toNat * 10 ^ 12 +
      2 * 65536 * (50000 : Word).toNat * State.reset.stat.freq.toNat < 65536 * 10 ^ 12) ∧
    2 * State.reset.stat.minDuty.toNat * 10 ^ 12 +
      2 * 65536 * (49999 : Word).toNat * State.reset.stat.freq.toNat < 65536 * 10 ^ 12 := by decide

theorem test_meets_WrMinDutyStoresOrRefuses :
    busy.eng.run = .running ∧ State.reset.eng.run = .idle ∧ State.reset.rstWait = false ∧
    32767 < (32768 : Word).toNat ∧ (32767 : Word).toNat ≤ 32767 ∧
    ¬ (2 * (32767 : Word).toNat * 10 ^ 12 +
      2 * 65536 * State.reset.stat.deadtime.toNat * State.reset.stat.freq.toNat < 65536 * 10 ^ 12) ∧
    2 * (32112 : Word).toNat * 10 ^ 12 +
      2 * 65536 * State.reset.stat.deadtime.toNat * State.reset.stat.freq.toNat < 65536 * 10 ^ 12 := by decide

/-- The six cases of a slot write to `PH0_HS`: RUNNING, outputs enabled, 0x400, GPIO 30, GPIO 16 (the channel of
`PH0_LS`), GPIO 29 (the last one). -/
theorem test_meets_WrSlotStoresOrRefuses :
    busy.eng.run = .running ∧ State.reset.eng.run = .idle ∧ State.reset.rstWait = false ∧
    ({ State.reset with outEn := true } : State).outEn = true ∧ State.reset.outEn = false ∧
    2 ^ 10 ≤ (0x400 : Word).toNat ∧ (0x3FF : Word).toNat < 2 ^ 10 ∧
    State.reset.params.numGpio ≤ (30 : Word).toNat % 256 ∧ (29 : Word).toNat % 256 < State.reset.params.numGpio ∧
    (Slot.l0 ≠ Slot.h0 ∧ (State.reset.stat.ph.get .l0).gpio.toNat % State.reset.params.chRepeat =
      (16 : Word).toNat % 256 % State.reset.params.chRepeat) ∧
    Slot.all.all (fun o => decide (o = .h0) || !decide
      ((State.reset.stat.ph.get o).gpio.toNat % State.reset.params.chRepeat =
        (29 : Word).toNat % 256 % State.reset.params.chRepeat)) = true := by decide

theorem test_meets_WrDutyAndModIndexStoreOrRefuse :
    State.reset.rstWait = false ∧ 65536 < (65537 : Word).toNat ∧ (65536 : Word).toNat ≤ 65536 := by decide

theorem test_meets_WrAngleStoresTheWrappedAngle : State.reset.rstWait = false := rfl

/-- The bound is inclusive, for both signs. -/
theorem test_meets_WrSpeedStoresOrRefuses :
    State.reset.rstWait = false ∧ (State.reset.stat.freq.toNat : Int) < 2 * |(5000001 : Word).toInt| ∧
    2 * |(-5000000 : Word).toInt| ≤ (State.reset.stat.freq.toNat : Int) := by decide

theorem test_meets_WrTrigSourceStoresAndConfigures :
    State.reset.rstWait = false ∧ 2 < (3 : Word).toNat ∧ (2 : Word).toNat = TrigSource.bus.code ∧
    (1 : Word).toNat = TrigSource.internalTimer.code := by decide

theorem test_meets_WrBurstTypeStoresOrRefuses :
    State.reset.rstWait = false ∧ 2 < (3 : Word).toNat ∧ (2 : Word).toNat = BurstType.duration.code := by decide

theorem test_meets_UncheckedSettersStore : State.reset.rstWait = false := rfl

theorem test_meets_RefusedCommandsChangeNothing :
    fromHost (.wrFreq 0) = true ∧ State.reset.rsp = none ∧
    exec (.wrFreq 0) State.reset = .next (after (exec (.wrFreq 0) State.reset)) ∧
    (after (exec (.wrFreq 0) State.reset)).rsp = answer 2 0 ∧ 1 ≤ 2 ∧ 2 ≤ 3 :=
  ⟨rfl, rfl, next_after (by decide), by decide, by decide, by decide⟩

/-- The operation and its value, for the register whose word has fields and for the one that is a view. -/
theorem test_meets_ReadsAnswerTheRawValue :
    State.reset.rstWait = false ∧
    (Instr.rdPh2Hs, State.reset.stat.ph.h2.gpio.toNat + 256 * State.reset.stat.ph.h2.inv.toNat +
      512 * State.reset.stat.ph.h2.idle.toNat) = (Instr.rdPh2Hs, 5) ∧
    (Instr.rdStatus, (if State.reset.eng.run = .running then 1 else 0) + 2 * State.reset.running.toNat) =
      (Instr.rdStatus, 0) := by decide

theorem test_meets_TrigArmsTheDelayOnAMatch :
    State.reset.rstWait = false ∧
    (Instr.trigBus, TrigSource.bus) ∈
      [(Instr.trigImmediate, TrigSource.immediate), (.trigInternalTimer, .internalTimer), (.trigBus, .bus)] ∧
    TrigSource.bus = State.reset.trigger.source ∧ State.reset.delayPending = false ∧
    TrigSource.immediate ≠ State.reset.trigger.source ∧
    ({ State.reset with delayPending := true } : State).delayPending = true := by decide

theorem test_meets_AbortAndRstdefClearRunning : (started .ph1 .directDuty).rstWait = false := by decide

theorem test_meets_RstdoneRestoresTheDefaults : waiting.rstWait = true ∧ waiting.eng.run = .idle := by decide

theorem test_meets_HostCommandsAreStuckWhileWaiting : fromHost .abort = true ∧ waiting.rstWait = true := by decide

theorem test_meets_TimerEventsDispatchAndArm :
    ({ State.reset with delayPending := true, itimerArmed := true } : State).delayPending = true ∧
    ({ State.reset with delayPending := true, itimerArmed := true } : State).itimerArmed = true ∧
    ({ State.reset with itimerArmed := true } : State).delayPending = false := by decide

theorem test_meets_DisabledEventsAreIgnored :
    State.reset.irqEn = false ∧ State.reset.delayPending = false ∧ State.reset.itimerArmed = false ∧
    State.reset.rstWait = false ∧ (started .ph1 .directDuty).eng.run = .running := by decide

theorem test_meets_PollWithoutStart :
    (started .ph1 .directDuty).eng.run = .running ∧
    (State.reset.hwDirty = false ∧ State.reset.trigPending = false ∧ State.reset.trigger.source ≠ .immediate) ∧
    ({ State.reset with running := true } : State).running = true ∧ State.reset.eng.run = .idle ∧
    (State.reset.running = false ∧ ({ State.reset with trigPending := true } : State).trigPending = true ∧
      State.reset.stat.opMode = .off) := by decide

/-- In 3-PHASE and in OFF without a trigger; with the running flag set under a trigger; in OFF with a trigger. -/
theorem test_meets_PollCompilesTheStaticConfig :
    (∀ m ∈ [OpMode.ph3, OpMode.off],
      let s := { ready m .directDuty with trigPending := false }
      s.eng.run = .idle ∧ s.hwDirty = true ∧ s.stat.freq ≠ 0 ∧ ¬ ruleTriggered s) ∧
    (let s := { ready .ph3 .directDuty with running := true }
     s.eng.run = .idle ∧ s.hwDirty = true ∧ s.stat.freq ≠ 0 ∧ s.running = true ∧ ruleTriggered s) ∧
    (let s := ready .off .directDuty
     s.eng.run = .idle ∧ s.hwDirty = true ∧ s.stat.freq ≠ 0 ∧ s.running = false ∧ ruleTriggered s ∧
       s.stat.opMode = .off) := by
  unfold ruleTriggered
  decide

/-- In the three control modes, with `hw_dirty` set and clear, by the flag and by the standing condition. -/
theorem test_meets_PollStartsTheWaveform :
    ∀ c ∈ [CtrlMode.directDuty, CtrlMode.modAngle, CtrlMode.modSpeed], ∀ dirty ∈ [true, false],
      ∀ src ∈ [TrigSource.bus, .immediate],
        let s := { compiledIdle .ph3 c with
          hwDirty := dirty, trigPending := decide (src = .bus), trigger := { State.reset.trigger with source := src } }
        s.eng.run = .idle ∧ s.running = false ∧ ruleTriggered s ∧ s.stat.opMode ≠ .off ∧ s.stat.freq ≠ 0 ∧
          s.stat.ctrlMode = c ∧ s.hwDirty = dirty := by
  unfold ruleTriggered
  decide

/-- V2.4 row 3: with `hw_dirty` set the levels come from the derived parameters just compiled. -/
theorem test_start_uses_the_new_parameters :
    let t := after (exec .poll { compiledIdle .ph1 .directDuty with
      stat := { (ready .ph1 .directDuty).stat with freq := 20000000 }, hwDirty := true })
    t.drv.maxCounter = 3125 ∧ t.ch.l0.wrap = 3125 ∧ t.ch.l0.level = 1500 ∧ t.ch.h0.level = 1625 := by decide

/-- A state with `FREQ` = 0, as no setter leaves it. -/
def zeroFreq : State := { ready .ph3 .modSpeed with stat := { (ready .ph3 .modSpeed).stat with freq := 0 } }

theorem test_meets_ZeroFrequencyStops :
    zeroFreq.stat.freq = 0 ∧ zeroFreq.eng.run = .idle ∧ zeroFreq.hwDirty = true ∧ zeroFreq.running = false ∧
    zeroFreq.trigPending = true ∧ ({ zeroFreq with hwDirty := false } : State).hwDirty = false ∧
    zeroFreq.stat.opMode ≠ .off ∧ zeroFreq.stat.ctrlMode = .modSpeed ∧
    ruleTriggered { zeroFreq with trigPending := false, trigger := { State.reset.trigger with source := .immediate } } ∧
    ({ zeroFreq with irqEn := true, running := true, reload := true } : State).irqEn = true := by
  unfold ruleTriggered
  decide

/-- Before the end of each kind of burst, at `FREQ` = 0. -/
theorem test_meets_ZeroFrequencyStops_in_every_burst :
    ∀ kind ∈ [BurstType.continuous, .ncycles, .duration],
      ¬ ruleBurstEnds { zeroFreq with
        irqEn   := true
        running := true
        reload  := true
        burst   := { kind := kind, count := 1, duration := 1 }
        eng     := { zeroFreq.eng with burstTimeout := 1 } } := by
  unfold ruleBurstEnds
  decide

theorem static_legal : StaticLegal Params.p0 (ready .ph3 .modSpeed).stat where
  freqLegal        := by decide
  marginBelowHalf  := by decide
  minDutyRange     := by decide
  gpioExists       := by intro sl; cases sl <;> decide
  channelsDistinct := by intro a b hab; cases a <;> cases b <;> first | exact absurd rfl hab | decide
  onePhaseDirect   := by decide

theorem runtime_legal : RuntimeLegal (ready .ph3 .modSpeed).stat State.reset.runtime where
  dutyRange     := by intro k; cases k <;> decide
  modIndexRange := by decide
  angleRange    := by decide
  speedBound    := by decide

/-- A legal state in IDLE, about to start. -/
theorem test_ready_is_legal : Legal (ready .ph3 .modSpeed) where
  params       := test_meets_ResetStateIsLegal
  static       := static_legal
  runtime      := runtime_legal
  dutyActive   := by intro k; cases k <;> decide
  runningFlag  := by decide
  irqEnabled   := by decide
  enabledSlots := by intro sl; cases sl <;> decide
  runningMode  := by decide
  compiled     := by decide
  levelsApart  := by intro h; exact absurd h (by decide)
  timerArmed   := by decide

/-- A legal state in IDLE with its derived parameters compiled. -/
theorem test_compiled_is_legal : Legal (compiledIdle .ph3 .modSpeed) where
  params       := test_meets_ResetStateIsLegal
  static       := static_legal
  runtime      := runtime_legal
  dutyActive   := by intro k; cases k <;> decide
  runningFlag  := by decide
  irqEnabled   := by decide
  enabledSlots := by intro sl; cases sl <;> decide
  runningMode  := by decide
  compiled     := by decide
  levelsApart  := by intro h; exact absurd h (by decide)
  timerArmed   := by decide

theorem test_started_is_legal : Legal (started .ph3 .modSpeed) where
  params       := test_meets_ResetStateIsLegal
  static       := static_legal
  runtime      := runtime_legal
  dutyActive   := by intro k; cases k <;> decide
  runningFlag  := by decide
  irqEnabled   := by decide
  enabledSlots := by intro sl; cases sl <;> decide
  runningMode  := by decide
  compiled     := by decide
  levelsApart  := by intro _ k _; cases k <;> decide
  timerArmed   := by decide

/-- The state after the start, with a burst of this kind, count and timeout. -/
def bursting (kind : BurstType) (count : Word) (timeout : BitVec 64) : State :=
  { started .ph3 .modSpeed with
    burst := { State.reset.burst with kind := kind, count := count }
    eng   := { (started .ph3 .modSpeed).eng with burstTimeout := timeout } }

theorem test_bursting_is_legal (kind : BurstType) (count : Word) (timeout : BitVec 64) :
    Legal (bursting kind count timeout) where
  params       := test_started_is_legal.params
  static       := test_started_is_legal.static
  runtime      := test_started_is_legal.runtime
  dutyActive   := test_started_is_legal.dutyActive
  runningFlag  := test_started_is_legal.runningFlag
  irqEnabled   := test_started_is_legal.irqEnabled
  enabledSlots := test_started_is_legal.enabledSlots
  runningMode  := test_started_is_legal.runningMode
  compiled     := fun _ _ => rfl
  levelsApart  := test_started_is_legal.levelsApart
  timerArmed   := test_started_is_legal.timerArmed

theorem test_meets_StartsUseFreshParameters :
    Legal (ready .ph3 .modSpeed) ∧ (ready .ph3 .modSpeed).eng.run = .idle ∧
    exec .poll (ready .ph3 .modSpeed) = .next (started .ph3 .modSpeed) ∧
    (started .ph3 .modSpeed).eng.run = .running :=
  ⟨test_ready_is_legal, rfl, rfl, by decide⟩

theorem test_meets_CycleStopsAtBurstEndOrAbort :
    (started .ph3 .modSpeed).irqEn = true ∧ ruleBurstEnds (bursting .ncycles 0 0) ∧
    ruleBurstEnds (bursting .duration 1 0) ∧ (bursting .ncycles 0 0).irqEn = true ∧
    ({ started .ph3 .modSpeed with running := false } : State).running = false := by
  refine ⟨by decide, Or.inl ⟨rfl, by decide⟩, Or.inr ⟨rfl, by decide⟩, by decide, rfl⟩

/-- With and without a reload. -/
theorem test_meets_CycleComputesDirectDuties :
    ∀ rl ∈ [true, false],
      let s := { started .ph3 .directDuty with reload := rl }
      s.irqEn = true ∧ s.running = true ∧ ¬ ruleBurstEnds s ∧ s.stat.ctrlMode = .directDuty ∧ s.reload = rl ∧
        s.stat.freq ≠ 0 := by
  unfold ruleBurstEnds
  decide

/-- With and without a reload. -/
theorem test_meets_CycleComputesAngleDuties :
    ∀ rl ∈ [true, false],
      let s := { started .ph3 .modAngle with reload := rl }
      s.irqEn = true ∧ s.running = true ∧ ¬ ruleBurstEnds s ∧ s.stat.ctrlMode = .modAngle ∧ s.reload = rl ∧
        s.stat.freq ≠ 0 := by
  unfold ruleBurstEnds
  decide

/-- With and without a reload. -/
theorem test_meets_CycleComputesSpeedDuties :
    ∀ rl ∈ [true, false],
      let s := { started .ph3 .modSpeed with reload := rl }
      s.irqEn = true ∧ s.running = true ∧ ¬ ruleBurstEnds s ∧ s.stat.ctrlMode = .modSpeed ∧ s.reload = rl ∧
        s.stat.freq ≠ 0 := by
  unfold ruleBurstEnds
  decide

/-- One computing `CYCLE` of each counting burst type. -/
theorem test_meets_CycleComputes_while_counting :
    ¬ ruleBurstEnds (bursting .ncycles 1 0) ∧ ¬ ruleBurstEnds (bursting .duration 1 1) := by
  unfold ruleBurstEnds
  decide

/-- The decided table and another one. -/
theorem test_meets_SineFollowsTheLookup :
    Params.p0.tableWf = true ∧ Params.p0.tableBits = 8 ∧ otherTable.tableWf = true := by decide +kernel

/-- The mirror about the quarter turn at both ends. -/
theorem test_meets_SineSymmetriesHoldExactly :
    Params.p0.tableWf = true ∧ otherTable.tableWf = true ∧ 0 ≤ 2 ^ 30 ∧ 2 ^ 30 ≤ 2 ^ 30 := by decide +kernel

theorem test_meets_SineIsBoundedAndRises :
    Params.p0.tableWf = true ∧ otherTable.tableWf = true ∧
    (0x3FFFFFFF : BitVec 32).toNat ≤ (0x40000000 : BitVec 32).toNat ∧ (0x40000000 : BitVec 32).toNat ≤ 2 ^ 30 := by
  decide +kernel

theorem test_meets_TwoPhaseDutiesSumToOne :
    (ready .ph2 .modAngle).stat.opMode = .ph2 ∧ (ready .ph2 .modAngle).runtime.modIndex.toNat ≤ 65536 ∧
    (ready .ph2 .modAngle).params.tableWf = true ∧ (ready .ph2 .modAngle).params.ampBits = 16 ∧
    ({ ready .ph2 .modAngle with params := otherTable } : State).params.tableWf = true ∧
    (65536 : Word).toNat ≤ 65536 := by decide +kernel

/-- The lowest legal frequency of P0 and a high one. -/
theorem test_meets_CompiledPeriodAndDeadtimeAreAccurate :
    0 < 125000000 ∧ legalF 125000000 3741 = true ∧ legalF 125000000 250000000 = true := by decide

theorem test_meets_ClippedDutyKeepsTheMargin :
    Legal (compiledIdle .ph3 .modSpeed) ∧ (compiledIdle .ph3 .modSpeed).hwDirty = false ∧
    (compiledIdle .ph3 .modSpeed).stat.opMode ≠ .off := ⟨test_compiled_is_legal, rfl, by decide⟩

/-- A legal RUNNING state with a `CYCLE` and a host command presented. -/
def busyPorts : State := { bursting .continuous 0 0 with sched := [threeAtOnce []] }

theorem test_busyPorts_is_legal : Legal busyPorts where
  params       := (test_bursting_is_legal .continuous 0 0).params
  static       := (test_bursting_is_legal .continuous 0 0).static
  runtime      := (test_bursting_is_legal .continuous 0 0).runtime
  dutyActive   := (test_bursting_is_legal .continuous 0 0).dutyActive
  runningFlag  := (test_bursting_is_legal .continuous 0 0).runningFlag
  irqEnabled   := (test_bursting_is_legal .continuous 0 0).irqEnabled
  enabledSlots := (test_bursting_is_legal .continuous 0 0).enabledSlots
  runningMode  := (test_bursting_is_legal .continuous 0 0).runningMode
  compiled     := fun _ _ => rfl
  levelsApart  := (test_bursting_is_legal .continuous 0 0).levelsApart
  timerArmed   := (test_bursting_is_legal .continuous 0 0).timerArmed

theorem test_meets_LegalStatesNeverStop :
    Legal busyPorts ∧ Legal (ready .ph3 .modSpeed) ∧ Params.p0.wf = true ∧ otherTable.wf = true :=
  ⟨test_busyPorts_is_legal, test_ready_is_legal, test_meets_ResetStateIsLegal, test_sine_of_another_table.1⟩

/-- A run: the operations presented are served in order, a bus store among them, and then nothing more happens. -/
theorem test_run_serves_what_is_presented :
    let presented : List Occasion :=
      [{ cmd := some { req := .busWrite 0 [3, 0, 0, 0], outEn := false }, ev := 0, arb := [] },
       { cmd := some { req := .word 0x30000000002, outEn := false }, ev := 0, arb := [] },
       { cmd := none, ev := 0x04, arb := [] }, { cmd := none, ev := 0x02, arb := [] }]
    (after (run Params.p0 presented 3)).trigPending = true ∧
    (after (run Params.p0 presented 4)).eng.run = .running ∧
    (after (run Params.p0 presented 5)).stat.opMode = .ph3 := by decide

theorem test_meets_EveryStepKeepsTheStateLegal :
    Legal busyPorts ∧ step busyPorts = .next (after (step busyPorts)) :=
  ⟨test_busyPorts_is_legal, next_after (by decide)⟩

theorem test_meets_LevelsStayBounded :
    Legal busyPorts ∧ LevelsBounded busyPorts ∧ busyPorts.eng.run = .running ∧
    step busyPorts = .next (after (step busyPorts)) :=
  ⟨test_busyPorts_is_legal, by intro _ k _; cases k <;> decide, by decide, next_after (by decide)⟩

theorem test_meets_NoShootThrough :
    Legal busyPorts ∧ busyPorts.eng.run = .running ∧ phaseActive busyPorts.phases .p2 = true ∧
    (busyPorts.stat.ph.get Phase.p2.lowSlot).inv = false ∧ (busyPorts.stat.ph.get Phase.p2.highSlot).inv = false :=
  ⟨test_busyPorts_is_legal, by decide, by decide, by decide, by decide⟩

/-- Both directions. -/
theorem test_meets_OnlyPollAndCycleMoveTheState :
    exec .poll (ready .ph3 .modSpeed) = .next (started .ph3 .modSpeed) ∧
    (started .ph3 .modSpeed).eng.run ≠ (ready .ph3 .modSpeed).eng.run ∧
    exec .cycle (bursting .ncycles 0 0) = .next (after (exec .cycle (bursting .ncycles 0 0))) ∧
    (after (exec .cycle (bursting .ncycles 0 0))).eng.run ≠ (bursting .ncycles 0 0).eng.run :=
  ⟨rfl, by decide, next_after (by decide), by decide⟩

/-- A change of each kind of field: `POLL` sets `running`, drops `hwDirty` and `trigPending`. -/
theorem test_meets_FieldsHaveTheirOwners :
    exec .poll (ready .ph3 .modSpeed) = .next (started .ph3 .modSpeed) ∧
    (ready .ph3 .modSpeed).hwDirty = true ∧ (started .ph3 .modSpeed).hwDirty = false ∧
    (ready .ph3 .modSpeed).trigPending = true ∧ (started .ph3 .modSpeed).trigPending = false ∧
    (ready .ph3 .modSpeed).running = false ∧ (started .ph3 .modSpeed).running = true :=
  ⟨rfl, rfl, by decide, rfl, by decide, rfl, by decide⟩

/-- The host's own fields: the delay, the timer, the wait and the response. -/
theorem test_meets_FieldsHaveTheirOwners_of_the_host :
    State.reset.delayPending = false ∧ (after (exec .trigBus State.reset)).delayPending = true ∧
    (after (exec .itfire { State.reset with itimerArmed := true })).delayPending = true ∧
    (after (exec (.wrTrigSource 1) State.reset)).itimerUs ≠ State.reset.itimerUs ∧
    (after (exec .trigBus { State.reset with trigger := { State.reset.trigger with delay := 7 } })).delayUs ≠ 0 ∧
    (after (exec .rstdef State.reset)).rstWait = true ∧ (after (exec .rstdone waiting)).rstWait = false ∧
    (after (exec .rstdone waiting)).rsp ≠ waiting.rsp := by decide

theorem test_meets_AbortThenCycleReturnsToIdle :
    Legal busyPorts ∧ busyPorts.rstWait = false ∧ busyPorts.eng.run = .running :=
  ⟨test_busyPorts_is_legal, by decide, by decide⟩

/-- Counts 0 and the largest. -/
theorem test_meets_NcyclesBurstEndsAfterItsCount :
    ∀ n ∈ [(0 : Word), 0xFFFFFFFF],
      Legal (bursting .ncycles n 0) ∧ (bursting .ncycles n 0).eng.run = .running ∧
        (bursting .ncycles n 0).running = true ∧ (bursting .ncycles n 0).burst.kind = .ncycles ∧
        (bursting .ncycles n 0).eng.burstCycles = 0 :=
  fun n _ => ⟨test_bursting_is_legal .ncycles n 0, rfl, rfl, rfl, rfl⟩

/-- Timeouts 0 and the largest below the bound. -/
theorem test_meets_DurationBurstEndsAtItsTimeout :
    (∀ n : BitVec 64, Legal (bursting .duration 0 n) ∧ (bursting .duration 0 n).eng.run = .running ∧
      (bursting .duration 0 n).running = true ∧ (bursting .duration 0 n).burst.kind = .duration ∧
      (bursting .duration 0 n).eng.burstTicks = 0 ∧ (bursting .duration 0 n).eng.burstTimeout = n) ∧
    (0 : BitVec 64).toNat < 2 ^ 63 ∧ (0x7FFFFFFFFFFFFFFF : BitVec 64).toNat < 2 ^ 63 ∧
    0 < (bursting .duration 0 0).eng.ticksPerCycle.toNat :=
  ⟨fun n => ⟨test_bursting_is_legal .duration 0 n, rfl, rfl, rfl, rfl, rfl⟩, by decide, by decide, by decide⟩

end Sys2Proof.Tests
end

/-! The operations that leave the inputs alone (R8, R17), the idle step (R18) and the sine lookup (R131 to R135). -/

namespace Sys2Proof.Machine

/-! ### What no operation writes -/

/-- What a state holds of the outside: the parameters (R8), what the agents presented and the sampled `out_en` (R17). -/
def State.inputs (s : State) : Params × List Occasion × Bool := (s.params, s.sched, s.outEn)

theorem State.inputs_eq_iff (s t : State) :
    t.inputs = s.inputs ↔ t.params = s.params ∧ t.sched = s.sched ∧ t.outEn = s.outEn := by
  simp only [State.inputs, Prod.mk.injEq]

/-- A guarded setter keeps the inputs if its effect does: a refusal changes the response alone. -/
theorem guardedSet_keeps_inputs {s e t : State} {l : List (Bool × Status)} (h : guardedSet s l e = .next t)
    (he : e.inputs = s.inputs) : t.inputs = s.inputs := by
  obtain ⟨-, ⟨st, -, rfl⟩ | ⟨-, rfl⟩⟩ := guardedSet_next h
  · rfl
  · exact he

theorem readCommand_keeps_inputs {s t : State} {r : Reg} (h : readCommand s r = .next t) : t.inputs = s.inputs := by
  obtain ⟨-, rfl⟩ := readCommand_next h
  rfl

theorem State.fire_inputs (s : State) (src : TrigSource) : (s.fire src).inputs = s.inputs := by
  obtain ⟨-, hf⟩ | ⟨-, hf⟩ := s.fire_eq src <;> rw [hf]
  rfl

theorem trigCommand_keeps_inputs {s t : State} {src : TrigSource} (h : trigCommand s src = .next t) :
    t.inputs = s.inputs := by
  obtain ⟨-, rfl⟩ := trigCommand_next h
  exact s.fire_inputs src

theorem hostCommand_keeps_inputs {s u t : State} (h : hostCommand s u = .next t) (hu : u.inputs = s.inputs) :
    t.inputs = s.inputs := by
  obtain ⟨-, rfl⟩ := hostCommand_next h
  exact hu

/-- Step 3 in each control mode writes working registers alone. -/
theorem refreshDuties_keeps_inputs {rl : Bool} {s t : State} (h : refreshDuties rl s = .ok t) :
    t.inputs = s.inputs := by
  obtain ⟨-, rfl⟩ | ⟨-, rfl⟩ | ⟨-, -, rfl⟩ := refreshDuties_ok h
  · cases rl <;> rfl
  · rfl
  · rfl

theorem dutyPass_keeps_inputs {force : Bool} {s t : State} (h : dutyPass force s = .ok t) : t.inputs = s.inputs := by
  obtain ⟨u, hu, rfl⟩ := dutyPass_ok h
  exact (refreshDuties_keeps_inputs hu :)

theorem start_keeps_inputs {s t : State} (h : start s = .ok t) : t.inputs = s.inputs := by
  obtain ⟨u, hu, rfl⟩ := start_ok h
  exact (dutyPass_keeps_inputs hu :)

theorem pollReconfig_keeps_inputs {s t : State} (h : pollReconfig s = .ok t) : t.inputs = s.inputs := by
  obtain ⟨-, -, -, rfl⟩ | ⟨-, rfl⟩ := pollReconfig_ok h <;> rfl

theorem pollTrigger_keeps_inputs {s t : State} (h : pollTrigger s = .ok t) : t.inputs = s.inputs := by
  obtain ⟨-, -, -, ⟨-, rfl⟩ | ⟨-, hs⟩⟩ | ⟨-, rfl⟩ := pollTrigger_ok h
  · rfl
  · exact start_keeps_inputs hs
  · rfl

theorem execPoll_keeps_inputs {s t : State} (h : execPoll s = .next t) : t.inputs = s.inputs := by
  obtain ⟨u, hu, ht⟩ := execPoll_next h
  exact (pollTrigger_keeps_inputs ht).trans (pollReconfig_keeps_inputs hu)

theorem cycleHandler_keeps_inputs {s t : State} (h : cycleHandler s = .ok t) : t.inputs = s.inputs := by
  obtain ⟨-, rfl⟩ | ⟨-, -, u, hu, rfl⟩ := cycleHandler_ok h
  · rfl
  · rw [State.advanceBurst_eq]
    exact (dutyPass_keeps_inputs hu :)

theorem execCycle_keeps_inputs {s t : State} (h : execCycle s = .next t) : t.inputs = s.inputs := by
  obtain ⟨-, rfl⟩ | ⟨-, hc⟩ := execCycle_next h
  · rfl
  · exact cycleHandler_keeps_inputs hc

theorem execDlyexp_keeps_inputs {s t : State} (h : execDlyexp s = .next t) : t.inputs = s.inputs := by
  cases h
  split <;> rfl

theorem execItfire_keeps_inputs {s t : State} (h : execItfire s = .next t) : t.inputs = s.inputs := by
  cases h
  split <;> rfl

theorem execRstdone_keeps_inputs {s t : State} (h : execRstdone s = .next t) : t.inputs = s.inputs := by
  obtain ⟨-, -, rfl⟩ | ⟨-, rfl⟩ := execRstdone_next h <;> rfl

/-- Every operation keeps the inputs: the setters, the reads, the other host commands, the events. -/
theorem exec_keeps_inputs {i : Instr} {s t : State} (h : exec i s = .next t) : t.inputs = s.inputs := by
  cases i with
  | wrOpMode v | wrCtrlMode v | wrTrigSource v | wrBurstType v =>
    exact guardedSet_keeps_inputs h (by split <;> rfl)
  | wrFreq v | wrDeadtime v | wrMinDuty v | wrPh0Ls v | wrPh0Hs v | wrPh1Ls v | wrPh1Hs v | wrPh2Ls v | wrPh2Hs v
  | wrDuty0 v | wrDuty1 v | wrDuty2 v | wrModIndex v | wrSpeed v => exact guardedSet_keeps_inputs h rfl
  | wrAngle v | wrTrigDelay v | wrTimerInterval v | wrBurstCount v | wrBurstDuration v =>
    exact guardedSet_keeps_inputs (l := []) h rfl
  | rdOpMode | rdCtrlMode | rdFreq | rdDeadtime | rdMinDuty | rdPh0Ls | rdPh0Hs | rdPh1Ls | rdPh1Hs | rdPh2Ls | rdPh2Hs
  | rdDuty0 | rdDuty1 | rdDuty2 | rdModIndex | rdAngle | rdSpeed | rdTrigSource | rdTrigDelay | rdTimerInterval
  | rdBurstType | rdBurstCount | rdBurstDuration | rdStatus => exact readCommand_keeps_inputs h
  | trigImmediate | trigInternalTimer | trigBus => exact trigCommand_keeps_inputs h
  | abort | rstdef => exact hostCommand_keeps_inputs h rfl
  | cycle => exact execCycle_keeps_inputs h
  | poll => exact execPoll_keeps_inputs h
  | dlyexp => exact execDlyexp_keeps_inputs h
  | itfire => exact execItfire_keeps_inputs h
  | rstdone => exact execRstdone_keeps_inputs h

/-- Settles O13: the inputs are kept by every operation. -/
theorem operationsKeepParametersAndPorts : Obligations.OperationsKeepParametersAndPorts :=
  fun _ s t h => (s.inputs_eq_iff t).mp (exec_keeps_inputs h)

/-! ### The idle step -/

/-- With nothing that may be served a step is the fall of the wires. -/
theorem step_of_nothing_servable {s : State} (h : ∀ o ∈ s.sched, ∀ x, ¬ servable s.rstWait o x) :
    step s = .next s.clearWires := by
  rw [step, takeNext_eq_none h]

/-- Settles O10: the idle step, with `clearWires` written out. -/
theorem nothingPresentedChangesNothing : Obligations.NothingPresentedChangesNothing :=
  fun _ h => step_of_nothing_servable h

/-! ### The sine lookup -/

/-- Bits 31:30 of an angle (R134). -/
theorem extractLsb'_eq_quadrantOf (a : BitVec 32) : (a.extractLsb' 30 2).toNat = quadrantOf a := by
  rw [BitVec.extractLsb'_toNat, Nat.shiftRight_eq_div_pow, quadrantOf]
  omega

theorem quadrantOf_lt (a : BitVec 32) : quadrantOf a < 4 := by
  rw [quadrantOf]
  omega

/-- The table index as the bits above the fraction, modulo the table's intervals (R134). -/
theorem tableIndexOf_eq (a : BitVec 32) {bits : Nat} (h : bits ≤ 30) :
    tableIndexOf bits a = a.toNat / 2 ^ (30 - bits) % 2 ^ bits := by
  have hpow : 2 ^ 30 = 2 ^ (30 - bits) * 2 ^ bits := by rw [← pow_add, Nat.sub_add_cancel h]
  rw [tableIndexOf, hpow, Nat.mod_mul_right_div_self]

/-- The index of a table of 256 intervals is bits 29:22 (R134). -/
theorem tableIndexOf_eight (a : BitVec 32) : tableIndexOf 8 a = (a.extractLsb' 22 8).toNat := by
  rw [tableIndexOf_eq a (by decide), BitVec.extractLsb'_toNat, Nat.shiftRight_eq_div_pow]

/-- The fraction of a table of 256 intervals is bits 21:0 (R134). -/
theorem fractionOf_eight (a : BitVec 32) : fractionOf 8 a = (a.extractLsb' 0 22).toNat := by
  rw [fractionOf, BitVec.extractLsb'_toNat, Nat.shiftRight_zero]

/-- The interpolation's division is the floor of the exact rational (R135). -/
theorem interpolate_eq_floor (lo hi : Int) (frac bits : Nat) :
    interpolate lo hi frac bits = lo + ⌊(((hi - lo) * frac : ℤ) : ℚ) / 2 ^ (30 - bits)⌋ := by
  have hfloor := Rat.floor_intCast_div_natCast ((hi - lo) * frac) (2 ^ (30 - bits))
  push_cast at hfloor ⊢
  rw [interpolate, hfloor]

/-- The magnitude as one interpolation: quadrants 0 and 2 index forward, 1 and 3 in reverse (R135). -/
theorem sineMagnitude_eq (rom : List Nat) (bits : Nat) (a : BitVec 32) :
    sineMagnitude rom bits a =
      interpolate
        (if quadrantOf a = 0 ∨ quadrantOf a = 2 then romEntry rom (tableIndexOf bits a)
         else romEntry rom (2 ^ bits - tableIndexOf bits a))
        (if quadrantOf a = 0 ∨ quadrantOf a = 2 then romEntry rom (tableIndexOf bits a + 1)
         else romEntry rom (2 ^ bits - tableIndexOf bits a - 1))
        (fractionOf bits a) bits := by
  have heven : quadrantOf a % 2 = 0 ↔ quadrantOf a = 0 ∨ quadrantOf a = 2 := by
    have := quadrantOf_lt a
    omega
  simp only [sineMagnitude, heven]
  split_ifs <;> rfl

/-- Quadrants 2 and 3 negate (R135). -/
theorem sineWith_eq (rom : List Nat) (bits : Nat) (a : BitVec 32) :
    sineWith rom bits a =
      if quadrantOf a = 2 ∨ quadrantOf a = 3 then -sineMagnitude rom bits a else sineMagnitude rom bits a := by
  have hupper : 2 ≤ quadrantOf a ↔ quadrantOf a = 2 ∨ quadrantOf a = 3 := by
    have := quadrantOf_lt a
    omega
  simp only [sineWith, hupper]

/-- The decided table is within the constraints of R8. -/
theorem p0_tableWf : Params.p0.tableWf = true := by decide +kernel

/-- The checks R133 lists for its table. -/
theorem sineRom_checks :
    Config.sineRom.length = 257 ∧ Config.sineRom.getD 0 1 = 0 ∧ Config.sineRom.getD 256 0 = 65536 ∧
      Config.sineRom.sum = 10713444 ∧ Config.sineRom.foldl (· ^^^ ·) 0 = 82266 ∧
      (Config.sineRom.mapIdx fun i e => i * e).sum = 1749079026 := by
  decide +kernel

theorem sineRom_nondecreasing : Config.sineRom.Pairwise (· ≤ ·) := by
  obtain ⟨-, -, -, -, -, hrises⟩ := (tableWf_iff Params.p0).mp p0_tableWf
  exact hrises

/-- Settles O46: the lookup with its indices inside the table, and the checks of the decided table. -/
theorem sineFollowsTheLookup : Obligations.SineFollowsTheLookup := by
  obtain ⟨hlength, hfirst, hlast, hsum, hxor, hweighted⟩ := sineRom_checks
  refine ⟨fun p a hwf => ?_, rfl, rfl, rfl, hlength, hfirst, hlast, hsum, hxor, hweighted, sineRom_nondecreasing⟩
  obtain ⟨-, hbits, hsize, -, -, -⟩ := (tableWf_iff p).mp hwf
  have hindex := tableIndexOf_eq a (show p.tableBits ≤ 30 by omega)
  have hlt := tableIndexOf_lt p.tableBits a (by omega)
  rw [hindex] at hlt
  refine ⟨?_, hsize, fun h8 => ?_, ?_⟩
  · rw [hsize, Params.tableSize]
    omega
  · rw [← hindex, h8]
    exact ⟨tableIndexOf_eight a, fractionOf_eight a⟩
  · rw [sine, sineWith_eq, sineMagnitude_eq, interpolate_eq_floor, hindex, ← extractLsb'_eq_quadrantOf]
    rfl

end Sys2Proof.Machine

/-! The invariant of the machine: what `Legal` reads, which operations keep it (R64), and the host's wait (R61, U9). -/

namespace Sys2Proof.Machine

/-! ### The compiled values under the constraints on the registers -/

/-- A divider within its range loses no frequency to the clamp, so the counter period fits (R154). -/
theorem maxCounterOf_le {clk f : Nat} (h : legalF clk f = true) : maxCounterOf clk f ≤ 65534 := by
  simp only [legalF, Bool.and_eq_true, decide_eq_true_eq] at h
  obtain ⟨⟨hf, hraw⟩, -⟩ := h
  have hclamp : dividerRaw clk f ≤ dividerOf clk f := by
    unfold dividerOf clampNat
    split_ifs <;> omega
  have hpos : 0 < f * Config.twiceCounterLimit := Nat.mul_pos hf (by decide)
  have hceil : clk * 1000 ≤ dividerRaw clk f * (f * Config.twiceCounterLimit) := by
    have hq : ((clk * 1000 : ℕ) : ℚ) / (f * 131068 : ℕ) ≤ dividerRaw clk f := by
      rw [dividerRaw_eq clk f hf]
      exact Nat.le_ceil _
    rw [div_le_iff₀ (by exact_mod_cast hpos)] at hq
    exact_mod_cast hq
  have hper : clk * 1000 ≤ 65534 * (f * 2 * dividerOf clk f) :=
    calc clk * 1000 ≤ dividerOf clk f * (f * Config.twiceCounterLimit) :=
          hceil.trans (Nat.mul_le_mul_right _ hclamp)
      _ = 65534 * (f * 2 * dividerOf clk f) := by rw [Config.twiceCounterLimit]; ring
  have hdiv : 0 < f * 2 * dividerOf clk f := Nat.mul_pos (by omega) (dividerOf_bounds clk f).1
  rw [maxCounterOf, roundDiv, ← Nat.lt_succ_iff, Nat.div_lt_iff_lt_mul (by omega)]
  omega

/-- With the margin below one half the deadtime takes less than the counter period (R159). -/
theorem dtTotalOf_le {f dt md : Nat} (h : inv4 f dt md = true) (mc : Nat) : dtTotalOf dt f mc ≤ mc := by
  have hdt : dt * f * 2 ≤ 10 ^ 12 := by
    have hle : 2 * 65536 * dt * f < 65536 * 10 ^ 12 :=
      (Nat.le_add_left _ _).trans_lt ((inv4_iff_nat f dt md).mp h)
    rw [Nat.mul_assoc (2 * 65536)] at hle
    omega
  have hmul : dt * f * mc * 2 ≤ 10 ^ 12 * mc := by
    calc dt * f * mc * 2 = dt * f * 2 * mc := by ring
      _ ≤ 10 ^ 12 * mc := Nat.mul_le_mul_right _ hdt
  rw [dtTotalOf, roundDiv, ← Nat.lt_succ_iff, Nat.div_lt_iff_lt_mul (by norm_num)]
  omega

/-- With the margin below one half the lower clip bound is at most one half (R160). -/
theorem clipLoOf_le {f dt md : Nat} (h : inv4 f dt md = true) : clipLoOf md dt f ≤ 2 ^ 32 := by
  rw [clipLoOf_eq_rule, Nat.ceil_le]
  have := (inv4_iff f dt md).mp h
  norm_num
  linarith

/-! The fields of the compiled parameters as the numbers they hold, in legal registers without loss (R164). -/

section
variable {s : State} (h : StaticLegal s.params s.stat)
include h

theorem StaticLegal.newMaxCounter_le : s.newMaxCounter ≤ 65534 := maxCounterOf_le h.freqLegal

theorem StaticLegal.newDtTotal_le : s.newDtTotal ≤ 65534 :=
  (dtTotalOf_le h.marginBelowHalf _).trans h.newMaxCounter_le

theorem StaticLegal.newClipLo_le : s.newClipLo ≤ 2 ^ 32 := clipLoOf_le h.marginBelowHalf

theorem StaticLegal.compiled_maxCounter : s.compiled.maxCounter.toNat = s.newMaxCounter := by
  have := h.newMaxCounter_le
  rw [State.compiled, BitVec.toNat_ofNat]
  omega

theorem StaticLegal.compiled_dtTotal : s.compiled.dtTotal.toNat = s.newDtTotal := by
  have := h.newDtTotal_le
  rw [State.compiled, BitVec.toNat_ofNat]
  omega

theorem StaticLegal.compiled_dtLow : s.compiled.dtLow.toNat = s.newDtTotal / 2 := by
  have := h.newDtTotal_le
  rw [State.compiled, BitVec.toNat_ofNat]
  omega

theorem StaticLegal.compiled_dtHigh : s.compiled.dtHigh.toNat = (s.newDtTotal + 1) / 2 := by
  have := h.newDtTotal_le
  rw [State.compiled, BitVec.toNat_ofNat]
  omega

theorem StaticLegal.compiled_clipLo : s.compiled.clipLo.toNat = s.newClipLo := by
  have := h.newClipLo_le
  rw [State.compiled, BitVec.toNat_ofNat]
  omega

theorem StaticLegal.compiled_clipHi : s.compiled.clipHi.toNat = 2 ^ 33 - s.newClipLo := by
  have := h.newClipLo_le
  rw [State.compiled, BitVec.toNat_ofInt]
  omega

end

/-! ### The levels of a phase -/

section
variable {s : State} (h : StaticLegal s.params s.stat) (hc : s.compiled = s.drv)
include h hc

/-- The clipper's bounds are in order, and its result lies between them (R247). -/
theorem clippedDuty_bounds (k : Phase) : s.newClipLo ≤ s.clippedDuty k ∧ s.clippedDuty k ≤ 2 ^ 33 - s.newClipLo := by
  have hle := h.newClipLo_le
  rw [State.clippedDuty, ← hc, h.compiled_clipLo, h.compiled_clipHi]
  exact clampNat_bounds _ (by omega)

/-- The compare counts are at most the counter period (R248). -/
theorem counts_le (k : Phase) : s.counts k ≤ s.newMaxCounter := by
  have hduty : s.clippedDuty k ≤ 2 ^ 33 := (clippedDuty_bounds h hc k).2.trans (Nat.sub_le _ _)
  rw [State.counts, ← hc, h.compiled_maxCounter]
  exact Nat.div_le_of_le_mul (Nat.mul_le_mul_right _ hduty)

/-- No level leaves the 18 bits it is stored in (R249). -/
theorem slotLevel_bounds (sl : Slot) : -2 ^ 17 ≤ s.slotLevel sl ∧ s.slotLevel sl < 2 ^ 17 := by
  have hcounts := counts_le h hc sl.phase
  have hmc := h.newMaxCounter_le
  have hdt := h.newDtTotal_le
  rw [State.slotLevel, ← hc, h.compiled_dtLow, h.compiled_dtHigh]
  cases sl.side <;> dsimp only <;> omega

theorem toInt_slotLevel (sl : Slot) : (BitVec.ofInt 18 (s.slotLevel sl)).toInt = s.slotLevel sl := by
  obtain ⟨hlo, hhi⟩ := slotLevel_bounds h hc sl
  exact BitVec.toInt_ofInt_eq_self (by decide) hlo hhi

/-- The two sides of a phase differ by the two halves of the deadtime, which add up to all of it (R249). -/
theorem slotLevel_high_sub_low (k : Phase) :
    s.slotLevel k.highSlot - s.slotLevel k.lowSlot = (s.drv.dtTotal.toNat : Int) := by
  simp only [State.slotLevel, Phase.highSlot_side, Phase.highSlot_phase, Phase.lowSlot_side, Phase.lowSlot_phase, ← hc,
    h.compiled_dtLow, h.compiled_dtHigh, h.compiled_dtTotal]
  omega

/-- Steps 4 and 5 leave the levels of each active phase apart by the total deadtime (R249, R253 (a)). -/
theorem withLevels_levelsApart : s.withLevels.levelsApart := by
  intro _ k hk
  have hk : phaseActive s.phases k = true := hk
  simp only [State.withLevels_ch_get, slotActive, Phase.highSlot_phase, Phase.lowSlot_phase, hk, if_true,
    toInt_slotLevel h hc, State.withLevels_drv]
  exact slotLevel_high_sub_low h hc k

end

/-! ### The duties -/

/-- Every entry of a legal table is at most `ONE`, and so is what is read beyond its end (R8). -/
theorem romEntry_bounds {p : Params} (h : p.tableWf = true) (i : Nat) :
    0 ≤ romEntry p.sineRom i ∧ romEntry p.sineRom i ≤ p.one := by
  obtain ⟨-, -, hsize, -, hlast, hrises⟩ := (tableWf_iff p).mp h
  refine ⟨Int.natCast_nonneg _, Int.ofNat_le.mpr ?_⟩
  rcases Nat.lt_or_ge i p.sineRom.length with hi | hi
  · have hN : p.tableSize < p.sineRom.length := by omega
    rw [← hlast, List.getD_eq_getElem _ _ hi, List.getD_eq_getElem _ _ hN]
    exact hrises.sortedLE.getElem_le_getElem_of_le (by omega)
  · rw [List.getD_eq_default _ _ hi]
    exact Nat.zero_le _

/-- The sine of a legal table is at most `ONE` in magnitude (R135). -/
theorem natAbs_sine_le {p : Params} (h : p.tableWf = true) (a : BitVec 32) : (sine p a).natAbs ≤ p.one := by
  have hinterp (i j : Nat) :
      0 ≤ interpolate (romEntry p.sineRom i) (romEntry p.sineRom j) (fractionOf p.tableBits a) p.tableBits ∧
        interpolate (romEntry p.sineRom i) (romEntry p.sineRom j) (fractionOf p.tableBits a) p.tableBits ≤ p.one := by
    have hb := interpolate_between (romEntry p.sineRom i) (romEntry p.sineRom j) _ _ (fractionOf_lt p.tableBits a)
    have hi := romEntry_bounds h i
    have hj := romEntry_bounds h j
    omega
  have hmag : 0 ≤ sineMagnitude p.sineRom p.tableBits a ∧ sineMagnitude p.sineRom p.tableBits a ≤ p.one := by
    unfold sineMagnitude
    dsimp only
    split_ifs
    · exact hinterp _ _
    · exact hinterp _ _
  unfold sine sineWith
  split_ifs <;> omega

/-- The swing is at most half of the duty range: a full index times a full sine (R243). A product that is rounded up lies
below the bound, which is a whole number of numerators (log entry 18). -/
theorem swingMagnitude_le (p : Params) {m mag : Nat} (hm : m ≤ 65536) (hmag : mag ≤ p.one) :
    swingMagnitude p m mag ≤ 2 ^ 32 := by
  have hprod : m * mag * 65536 ≤ 2 ^ 32 * p.one := by
    have := Nat.mul_le_mul_right 65536 (Nat.mul_le_mul hm hmag)
    omega
  have hquot : m * mag * 65536 / p.one ≤ 2 ^ 32 := Nat.div_le_of_le_mul (by rwa [Nat.mul_comm p.one])
  rcases swingMagnitude_spec p m mag with ⟨-, hs⟩ | ⟨hrem, hs | hs⟩
  · omega
  · omega
  · have hlt : m * mag * 65536 / p.one < 2 ^ 32 := by
      refine lt_of_le_of_ne hquot fun heq => hrem ?_
      have hdm := Nat.div_add_mod (m * mag * 65536) p.one
      rw [heq] at hdm
      omega
    omega

/-- A modulated duty lies in the duty range (R24, R243). -/
theorem modulatedDuty_le {s : State} (hp : s.params.tableWf = true) (hm : s.runtime.modIndex.toNat ≤ 65536)
    (acc : BitVec 32) (k : Phase) : (modulatedDuty s acc k).toNat ≤ 2 ^ 33 := by
  have hswing := swingMagnitude_le s.params hm (natAbs_sine_le hp (acc + phaseOffset s.stat.opMode k))
  rw [modulatedDuty, dutySwing, BitVec.toNat_ofInt]
  split_ifs <;> omega

/-! ### When `RECONFIG` would change nothing -/

/-- The fields of a channel record that `RECONFIG` programs (R155). -/
def Channel.setup (c : Channel) : Nat × Bool × BitVec 8 × BitVec 17 × Bool :=
  (c.chan, c.center, c.div, c.wrap, c.polInv)

theorem State.programmed_eq_iff (s : State) (sl : Slot) :
    s.programmed sl = s.ch.get sl ↔ (s.ch.get sl).setup = (s.programmed sl).setup := by
  refine ⟨fun h => by rw [h], fun h => ?_⟩
  simp only [Channel.setup, Prod.mk.injEq] at h
  obtain ⟨hchan, hcenter, hdiv, hwrap, hpol⟩ := h
  calc s.programmed sl
      = { s.ch.get sl with
          chan := (s.programmed sl).chan, center := (s.programmed sl).center, div := (s.programmed sl).div
          wrap := (s.programmed sl).wrap, polInv := (s.programmed sl).polInv } := rfl
    _ = s.ch.get sl := by rw [← hchan, ← hcenter, ← hdiv, ← hwrap, ← hpol]

/-- `RECONFIG` changes nothing exactly if each of its results is already in its register (R164). -/
theorem State.reconfigured_eq_self_iff (s : State) :
    s.reconfigured = s ↔
      s.compiled = s.drv ∧
      BitVec.ofNat 32 (2 * s.newDivider * s.newMaxCounter) = s.eng.ticksPerCycle ∧
      s.newIrqChan s.irqChan = s.irqChan ∧
      ∀ sl, slotActive s.phases sl = true → (s.ch.get sl).setup = (s.programmed sl).setup := by
  constructor
  · intro h
    refine ⟨congrArg State.drv h, congrArg (·.eng.ticksPerCycle) h, congrArg State.irqChan h, fun sl hsl => ?_⟩
    rw [← s.programmed_eq_iff]
    simpa [hsl] using congrArg (·.ch.get sl) h
  · rintro ⟨hdrv, hticks, hirq, hch⟩
    have hch' : s.reconfigured.ch = s.ch := PerSlot.ext_get fun sl => by
      rw [State.reconfigured_ch_get]
      split
      next hsl => exact (s.programmed_eq_iff sl).mpr (hch sl hsl)
      next => rfl
    calc s.reconfigured
        = { s with
            drv := s.compiled
            eng := { s.eng with ticksPerCycle := BitVec.ofNat 32 (2 * s.newDivider * s.newMaxCounter) }
            ch := s.reconfigured.ch
            irqChan := s.newIrqChan s.irqChan } := rfl
      _ = s := by rw [hdrv, hticks, hirq, hch']

/-! The results of `RECONFIG` are functions of the parameters and the StaticConfig (R150, R164). -/

section
variable {s t : State} (hp : t.params = s.params) (hs : t.stat = s.stat)
include hp hs

theorem newDivider_congr : t.newDivider = s.newDivider := by simp only [State.newDivider, hp, hs]

theorem newMaxCounter_congr : t.newMaxCounter = s.newMaxCounter := by simp only [State.newMaxCounter, hp, hs]

theorem newChan_congr (sl : Slot) : t.newChan sl = s.newChan sl := by simp only [State.newChan, hp, hs]

theorem newIrqChan_congr (old : Nat) : t.newIrqChan old = s.newIrqChan old := by
  simp only [State.newIrqChan, State.phases, newChan_congr hp hs, hs]

theorem programmed_setup_congr (sl : Slot) : (t.programmed sl).setup = (s.programmed sl).setup := by
  simp only [State.programmed, Channel.setup, State.newPolarity, newChan_congr hp hs, newDivider_congr hp hs,
    newMaxCounter_congr hp hs, hs]

/-- The channels of inactive slots and, in OFF, `irq_chan` are taken over from before. -/
theorem compiled_congr (hchan : t.compiled.chan = s.compiled.chan) (hirq : t.compiled.irqChan = s.compiled.irqChan) :
    t.compiled = s.compiled := by
  have hdt : t.newDtTotal = s.newDtTotal := by simp only [State.newDtTotal, newMaxCounter_congr hp hs, hs]
  have hclip : t.newClipLo = s.newClipLo := by simp only [State.newClipLo, hs]
  have hmask : t.newEnableMask = s.newEnableMask := by
    simp only [State.newEnableMask, State.phases, newChan_congr hp hs, hs]
  simp only [State.compiled] at hchan hirq ⊢
  rw [hchan, hirq, hdt, hclip, hmask, newDivider_congr hp hs, newMaxCounter_congr hp hs]

end

/-- Two states that agree on all that `RECONFIG` reads or writes. -/
structure SameProgram (s t : State) : Prop where
  params  : t.params = s.params
  stat    : t.stat = s.stat
  drv     : t.drv = s.drv
  ticks   : t.eng.ticksPerCycle = s.eng.ticksPerCycle
  irqChan : t.irqChan = s.irqChan
  setup   : ∀ sl, (t.ch.get sl).setup = (s.ch.get sl).setup

theorem SameProgram.reconfigured_eq_self {s t : State} (h : SameProgram s t) (hs : s.reconfigured = s) :
    t.reconfigured = t := by
  obtain ⟨hdrv, hticks, hirq, hch⟩ := s.reconfigured_eq_self_iff.mp hs
  have hcompiled : t.compiled = s.compiled := by
    refine compiled_congr h.params h.stat ?_ ?_
    · simp only [State.compiled, State.phases, newChan_congr h.params h.stat, h.stat, h.drv]
    · simp only [State.compiled, newIrqChan_congr h.params h.stat, h.drv]
  refine t.reconfigured_eq_self_iff.mpr ⟨?_, ?_, ?_, fun sl hsl => ?_⟩
  · rw [hcompiled, hdrv, h.drv]
  · rw [newDivider_congr h.params h.stat, newMaxCounter_congr h.params h.stat, hticks, h.ticks]
  · rw [newIrqChan_congr h.params h.stat, h.irqChan, hirq]
  · rw [State.phases, h.stat] at hsl
    rw [h.setup, programmed_setup_congr h.params h.stat, hch sl hsl]

theorem State.newIrqChan_idempotent (s : State) (old : Nat) : s.newIrqChan (s.newIrqChan old) = s.newIrqChan old := by
  unfold State.newIrqChan
  split <;> rfl

/-- `RECONFIG` twice is `RECONFIG` once (R64 item 7). -/
theorem State.reconfigured_idempotent (s : State) : s.reconfigured.reconfigured = s.reconfigured := by
  have hp := s.reconfigured_params
  have hs := s.reconfigured_stat
  refine s.reconfigured.reconfigured_eq_self_iff.mpr ⟨?_, ?_, ?_, fun sl hsl => ?_⟩
  · rw [State.reconfigured_drv]
    refine compiled_congr hp hs (PerSlot.ext_get fun sl => ?_) ?_
    · simp only [State.compiled, PerSlot.get_tabulate, State.phases, newChan_congr hp hs, hs, State.reconfigured_drv]
      split <;> rfl
    · simp only [State.compiled, State.reconfigured_drv, newIrqChan_congr hp hs, State.newIrqChan_idempotent]
  · rw [newDivider_congr hp hs, newMaxCounter_congr hp hs, State.reconfigured_eng]
  · rw [newIrqChan_congr hp hs, State.reconfigured_irqChan, State.newIrqChan_idempotent]
  · rw [State.phases, hs] at hsl
    rw [programmed_setup_congr hp hs, State.reconfigured_ch_get, if_pos hsl]

/-! ### What `Legal` reads -/

/-- The part of a state that `Legal` speaks of. The records stand with their pulses cleared, since it says nothing of
these. -/
structure LegalView where
  params      : Params
  stat        : StaticConfig
  runtime     : RuntimeParams
  source      : TrigSource
  run         : RunState
  dutyActive  : PerPhase (BitVec 34)
  ticks       : BitVec 32
  running     : Bool
  hwDirty     : Bool
  itimerArmed : Bool
  drv         : Derived
  ch          : PerSlot Channel
  irqEn       : Bool
  irqChan     : Nat

def State.legalView (s : State) : LegalView where
  params      := s.params
  stat        := s.stat
  runtime     := s.runtime
  source      := s.trigger.source
  run         := s.eng.run
  dutyActive  := s.eng.dutyActive
  ticks       := s.eng.ticksPerCycle
  running     := s.running
  hwDirty     := s.hwDirty
  itimerArmed := s.itimerArmed
  drv         := s.drv
  ch          := s.clearWires.ch
  irqEn       := s.irqEn
  irqChan     := s.irqChan

/-- Legality is a matter of the view: an operation that leaves the view alone keeps it. -/
theorem Legal.of_view {s t : State} (h : Legal s) (hv : t.legalView = s.legalView) : Legal t := by
  have hparams : t.params = s.params := congrArg LegalView.params hv
  have hstat : t.stat = s.stat := congrArg LegalView.stat hv
  have hruntime : t.runtime = s.runtime := congrArg LegalView.runtime hv
  have hrun : t.eng.run = s.eng.run := congrArg LegalView.run hv
  have hduty : t.eng.dutyActive = s.eng.dutyActive := congrArg LegalView.dutyActive hv
  have hrunning : t.running = s.running := congrArg LegalView.running hv
  have hdirty : t.hwDirty = s.hwDirty := congrArg LegalView.hwDirty hv
  have harmed : t.itimerArmed = s.itimerArmed := congrArg LegalView.itimerArmed hv
  have hsource : t.trigger.source = s.trigger.source := congrArg LegalView.source hv
  have hdrv : t.drv = s.drv := congrArg LegalView.drv hv
  have hirq : t.irqEn = s.irqEn := congrArg LegalView.irqEn hv
  have hch (sl : Slot) : t.clearWires.ch.get sl = s.clearWires.ch.get sl := congrArg (·.ch.get sl) hv
  have henabled (sl : Slot) : (t.ch.get sl).enabled = (s.ch.get sl).enabled := by
    simpa using congrArg Channel.enabled (hch sl)
  have hlevel (sl : Slot) : (t.ch.get sl).level = (s.ch.get sl).level := by
    simpa using congrArg Channel.level (hch sl)
  have hprogram : SameProgram s t :=
    { params := hparams, stat := hstat, drv := hdrv, ticks := congrArg LegalView.ticks hv
      irqChan := congrArg LegalView.irqChan hv
      setup := fun sl => by simpa [Channel.setup] using congrArg Channel.setup (hch sl) }
  exact {
    params       := by rw [hparams]; exact h.params
    static       := by rw [hparams, hstat]; exact h.static
    runtime      := by rw [hstat, hruntime]; exact h.runtime
    dutyActive   := by rw [hduty]; exact h.dutyActive
    runningFlag  := by rw [hrunning, hrun]; exact h.runningFlag
    irqEnabled   := by rw [hirq, hrun]; exact h.irqEnabled
    enabledSlots := fun sl => by rw [henabled, hrun, State.phases, hstat]; exact h.enabledSlots sl
    runningMode  := by rw [hrun, hstat, hdirty]; exact h.runningMode
    compiled     := fun hclean hmode =>
      hprogram.reconfigured_eq_self (h.compiled (hdirty ▸ hclean) (hstat ▸ hmode))
    levelsApart  := fun hr k hk => by
      rw [hlevel, hlevel, hdrv]
      exact h.levelsApart (hrun ▸ hr) k (by rwa [State.phases, hstat] at hk)
    timerArmed   := by rw [harmed, hsource]; exact h.timerArmed }

/-! ### The constraints on the parameters -/

theorem Params.wf_iff (p : Params) :
    p.wf = true ↔
      p.platformWf = true ∧ p.tableWf = true ∧ p.slotsWf = true ∧ p.carrierWf = true ∧ p.runtimeWf = true := by
  simp only [Params.wf, Bool.and_eq_true, and_assoc]

/-! ### The updates that keep a state legal -/

theorem State.run_ne_running {s : State} (hidle : s.isRunning = false) : s.eng.run ≠ .running :=
  of_decide_eq_false hidle

theorem Legal.respond {s : State} (h : Legal s) (st : Status) (v : Word) : Legal (s.respond st v) := h.of_view rfl

/-- A store of the configuration in IDLE: `hw_dirty` takes back every claim on the compiled parameters (R31). -/
theorem Legal.store {s : State} (h : Legal s) (hidle : s.eng.run ≠ .running) {c : StaticConfig} {r : RuntimeParams}
    (hc : StaticLegal s.params c) (hr : RuntimeLegal c r) :
    Legal { s with stat := c, runtime := r, hwDirty := true } where
  params       := h.params
  static       := hc
  runtime      := hr
  dutyActive   := h.dutyActive
  runningFlag  := h.runningFlag
  irqEnabled   := h.irqEnabled
  enabledSlots := fun sl => by
    have hoff : ¬ (s.ch.get sl).enabled = true := fun he => hidle ((h.enabledSlots sl).mp he).1
    exact iff_of_false hoff fun hon => hidle hon.1
  runningMode  := fun hr => absurd hr hidle
  compiled     := fun hclean => nomatch hclean
  levelsApart  := fun hr => absurd hr hidle
  timerArmed   := h.timerArmed

/-- A StaticConfig store in IDLE that keeps the speed bound (R271). -/
theorem Legal.storeStatic {s : State} (h : Legal s) (hidle : s.eng.run ≠ .running) {c : StaticConfig}
    (hc : StaticLegal s.params c) (hspeed : inv5 s.runtime.speed.toInt c.freq.toNat = true) :
    Legal (s.storeStatic c) :=
  h.store hidle hc { h.runtime with speedBound := hspeed }

/-- What may change in any state, RUNNING or not: the runtime parameters, the trigger configuration with the timer armed
for it, and the running flag, which may fall at any time (R64 item 8). -/
theorem Legal.update {s : State} (h : Legal s) {r : RuntimeParams} {c : TriggerConfig} {armed flag : Bool}
    (hr : RuntimeLegal s.stat r) (harmed : armed = true ↔ c.source = .internalTimer)
    (hflag : flag = true → s.running = true) :
    Legal { s with runtime := r, trigger := c, itimerArmed := armed, running := flag } :=
  { h with
    runtime     := hr
    runningFlag := fun hon => h.runningFlag (hflag hon)
    timerArmed  := harmed
    compiled    := fun hclean hmode =>
      SameProgram.reconfigured_eq_self (s := s) ⟨rfl, rfl, rfl, rfl, rfl, fun _ => rfl⟩ (h.compiled hclean hmode) }

/-- A RuntimeParams store (R271). -/
theorem Legal.storeRuntime {s : State} (h : Legal s) {r : RuntimeParams} (hr : RuntimeLegal s.stat r) :
    Legal (s.storeRuntime r) := (h.update hr h.timerArmed id).of_view rfl

/-- A new trigger configuration with `CONFIGURE` of its source: the timer is armed exactly for its source (R180,
R181). -/
theorem Legal.configure {s : State} (h : Legal s) (c : TriggerConfig) :
    Legal ((s.storeTrigger c).configure c.source) :=
  (h.update (c := c) h.runtime decide_eq_true_iff id).of_view rfl

theorem Legal.stopRunning {s : State} (h : Legal s) : Legal { s with running := false } :=
  h.update h.runtime h.timerArmed fun hon => nomatch hon

theorem State.sameProgram_cleared (s : State) : SameProgram s { s with hwDirty := false } :=
  ⟨rfl, rfl, rfl, rfl, rfl, fun _ => rfl⟩

/-- `RECONFIG` writes no more than its results (R164). -/
theorem State.reconfigured_frame (s : State) : ∃ d n c i,
    s.reconfigured = { s with drv := d, eng := { s.eng with ticksPerCycle := n }, ch := c, irqChan := i } :=
  ⟨_, _, _, _, rfl⟩

/-- `RECONFIG` in IDLE (R211). -/
theorem Legal.reconfigured {s : State} (h : Legal s) (hidle : s.eng.run ≠ .running) :
    Legal { s.reconfigured with hwDirty := false } := by
  have henabled (sl : Slot) : (s.reconfigured.ch.get sl).enabled = (s.ch.get sl).enabled := by
    rw [State.reconfigured_ch_get]
    split <;> rfl
  have hcompiled := s.reconfigured.sameProgram_cleared.reconfigured_eq_self s.reconfigured_idempotent
  obtain ⟨d, n, c, i, heq⟩ := s.reconfigured_frame
  rw [heq] at henabled hcompiled ⊢
  exact { h with
    enabledSlots := fun sl => by rw [henabled]; exact h.enabledSlots sl
    runningMode  := fun hr => absurd hr hidle
    compiled     := fun _ _ => hcompiled
    levelsApart  := fun hr => absurd hr hidle }

/-- `TOIDLE` disables the slots that were enabled, and no slot is in use then (R236). -/
theorem Legal.toIdle {s : State} (h : Legal s) : Legal s.toIdle where
  params       := h.params
  static       := h.static
  runtime      := h.runtime
  dutyActive   := h.dutyActive
  runningFlag  := fun hr => nomatch hr
  irqEnabled   := iff_of_false Bool.false_ne_true fun hr => nomatch hr
  enabledSlots := fun sl => by
    refine iff_of_false ?_ fun hon => nomatch hon.1
    rw [State.toIdle_ch_get]
    split
    · exact Bool.false_ne_true
    next hoff => exact fun he => hoff ((h.enabledSlots sl).mp he).2
  runningMode  := fun hr => nomatch hr
  compiled     := fun hclean hmode => by
    refine SameProgram.reconfigured_eq_self (s := s) ⟨rfl, rfl, rfl, rfl, rfl, fun sl => ?_⟩ (h.compiled hclean hmode)
    rw [State.toIdle_ch_get]
    split <;> rfl
  levelsApart  := fun hr => nomatch hr
  timerArmed   := h.timerArmed

/-! ### The duty pass -/

/-- A state in which duties may be computed: RUNNING with current parameters, whatever the channel port shows. Between the
first and the last write of `START` the state is of this kind without being legal (R214). -/
structure Primed (s : State) : Prop where
  params      : s.params.wf = true
  static      : StaticLegal s.params s.stat
  runtime     : RuntimeLegal s.stat s.runtime
  dutyActive  : ∀ k, (s.eng.dutyActive.get k).toNat ≤ 2 ^ 33
  running     : s.eng.run = .running
  runningMode : s.stat.opMode ≠ .off ∧ s.hwDirty = false
  compiled    : s.reconfigured = s
  timerArmed  : s.itimerArmed = true ↔ s.trigger.source = .internalTimer

theorem Primed.drv_compiled {s : State} (h : Primed s) : s.compiled = s.drv :=
  (s.reconfigured_eq_self_iff.mp h.compiled).1

theorem Legal.primed {s : State} (h : Legal s) (hr : s.eng.run = .running) : Primed s :=
  { h with
    running := hr
    runningMode := h.runningMode hr
    compiled := h.compiled (h.runningMode hr).2 (h.runningMode hr).1 }

/-- The state in which `START` primes the duties (R214). -/
theorem Legal.primed_startReset {s : State} (h : Legal s) (hmode : s.stat.opMode ≠ .off) (hclean : s.hwDirty = false) :
    Primed s.startReset :=
  { h with
    running := rfl
    runningMode := ⟨hmode, hclean⟩
    compiled := SameProgram.reconfigured_eq_self (s := s) ⟨rfl, rfl, rfl, rfl, rfl, fun _ => rfl⟩
      (h.compiled hclean hmode) }

/-- A primed state is legal once the channel port shows that it runs. -/
theorem Primed.legal {s : State} (h : Primed s) (hirq : s.irqEn = true)
    (henabled : ∀ sl, (s.ch.get sl).enabled = slotActive s.phases sl) (hlevels : s.levelsApart) : Legal s :=
  { h with
    runningFlag  := fun _ => h.running
    irqEnabled   := iff_of_true hirq h.running
    enabledSlots := fun sl => by rw [henabled, and_iff_right h.running]
    runningMode  := fun _ => h.runningMode
    compiled     := fun _ _ => h.compiled
    levelsApart  := hlevels }

/-- Step 3 writes no more than the phase registers and the duties (R240). -/
theorem refreshDuties_frame {rl : Bool} {s t : State} (h : refreshDuties rl s = .ok t) :
    ∃ acc delta duties,
      t = { s with eng := { s.eng with phaseAcc := acc, phaseDelta := delta, dutyActive := duties } } := by
  obtain ⟨-, rfl⟩ | ⟨-, rfl⟩ | ⟨-, -, rfl⟩ := refreshDuties_ok h
  · cases rl <;> exact ⟨_, _, _, rfl⟩
  · exact ⟨_, _, _, rfl⟩
  · exact ⟨_, _, _, rfl⟩

theorem withDuties_dutyActive_le {s : State} {f : Phase → BitVec 34} (hf : ∀ k, (f k).toNat ≤ 2 ^ 33)
    (hs : ∀ k, (s.eng.dutyActive.get k).toNat ≤ 2 ^ 33) (k : Phase) :
    ((s.withDuties f).eng.dutyActive.get k).toNat ≤ 2 ^ 33 := by
  rw [State.withDuties_dutyActive_get]
  split
  · exact hf k
  · exact hs k

/-- Step 3 leaves the duties numerators, in each control mode (R24, R241 to R244). -/
theorem refreshDuties_dutyActive_le {rl : Bool} {s t : State} (h : refreshDuties rl s = .ok t)
    (hp : s.params.wf = true) (hr : RuntimeLegal s.stat s.runtime)
    (hs : ∀ k, (s.eng.dutyActive.get k).toNat ≤ 2 ^ 33) (k : Phase) : (t.eng.dutyActive.get k).toNat ≤ 2 ^ 33 := by
  obtain ⟨-, htable, -, -, -⟩ := (Params.wf_iff s.params).mp hp
  have hmod (acc : BitVec 32) (j : Phase) : (modulatedDuty s acc j).toNat ≤ 2 ^ 33 :=
    modulatedDuty_le htable hr.modIndexRange acc j
  obtain ⟨-, rfl⟩ | ⟨-, rfl⟩ | ⟨-, -, rfl⟩ := refreshDuties_ok h
  · cases rl with
    | false => exact hs k
    | true =>
      refine withDuties_dutyActive_le (fun j => ?_) hs k
      have hduty := hr.dutyRange j
      rw [BitVec.toNat_ofNat]
      omega
  · exact withDuties_dutyActive_le (hmod _) hs k
  · exact withDuties_dutyActive_le (hmod _) hs k

/-- Steps 4 and 5 write the levels and nothing else of a record (R247 to R249). -/
theorem State.withLevels_ch_frame (s : State) (sl : Slot) :
    (s.withLevels.ch.get sl).setup = (s.ch.get sl).setup ∧
      (s.withLevels.ch.get sl).enabled = (s.ch.get sl).enabled := by
  rw [State.withLevels_ch_get]
  split <;> exact ⟨rfl, rfl⟩

/-- The duty pass leaves the parameters it works on and who is enabled, and sets the levels apart (R240, R253 (a)). -/
theorem Primed.dutyPass {force : Bool} {s t : State} (h : Primed s) (ht : dutyPass force s = .ok t) :
    Primed t ∧ t.levelsApart ∧ t.irqEn = s.irqEn ∧ t.stat = s.stat ∧
      ∀ sl, (t.ch.get sl).enabled = (s.ch.get sl).enabled := by
  obtain ⟨u, hu, rfl⟩ := dutyPass_ok ht
  have hduty := refreshDuties_dutyActive_le hu h.params h.runtime h.dutyActive
  obtain ⟨acc, delta, duties, hframe⟩ := refreshDuties_frame hu
  have hlevels : u.withLevels.levelsApart := by
    subst hframe
    exact withLevels_levelsApart h.static h.drv_compiled
  subst hframe
  refine ⟨{ h with dutyActive := hduty, compiled := ?_ }, hlevels, rfl, rfl,
    fun sl => (State.withLevels_ch_frame _ sl).2⟩
  exact SameProgram.reconfigured_eq_self (s := s)
    ⟨rfl, rfl, rfl, rfl, rfl, fun sl => (State.withLevels_ch_frame _ sl).1⟩ h.compiled

/-! ### The events of the engine -/

/-- `START` from IDLE with current parameters (R214). -/
theorem Legal.start {s t : State} (h : Legal s) (hidle : s.eng.run ≠ .running) (hmode : s.stat.opMode ≠ .off)
    (hclean : s.hwDirty = false) (ht : start s = .ok t) : Legal t := by
  obtain ⟨u, hu, rfl⟩ := start_ok ht
  obtain ⟨hprimed, hlevels, -, hstat, hen⟩ := (h.primed_startReset hmode hclean).dutyPass hu
  have hoff (sl : Slot) : (u.ch.get sl).enabled = false := by
    rw [hen]
    exact Bool.eq_false_iff.mpr fun he => hidle ((h.enabledSlots sl).mp he).1
  have hsetup (sl : Slot) : (u.enableOutputs.ch.get sl).setup = (u.ch.get sl).setup := by
    rw [State.enableOutputs_ch_get]
    split <;> rfl
  have hlevel (sl : Slot) : (u.enableOutputs.ch.get sl).level = (u.ch.get sl).level := by
    rw [State.enableOutputs_ch_get]
    split <;> rfl
  have hcompiled : u.enableOutputs.reconfigured = u.enableOutputs :=
    SameProgram.reconfigured_eq_self (s := u) ⟨rfl, rfl, rfl, rfl, rfl, hsetup⟩ hprimed.compiled
  refine Primed.legal { hprimed with compiled := hcompiled } rfl (fun sl => ?_) fun hr k hk => ?_
  · rw [State.enableOutputs_ch_get]
    split
    next hon => exact hon.symm
    next hnot => rw [hoff]; exact (Bool.eq_false_iff.mpr hnot).symm
  · rw [hlevel, hlevel]
    exact hlevels hr k hk

theorem Legal.pollReconfig {s t : State} (h : Legal s) (ht : pollReconfig s = .ok t) :
    Legal t ∧ (t.isRunning = false → t.hwDirty = false) := by
  obtain ⟨hidle, -, -, rfl⟩ | ⟨hnot, rfl⟩ := pollReconfig_ok ht
  · exact ⟨h.reconfigured (State.run_ne_running hidle), fun _ => rfl⟩
  · exact ⟨h, fun hidle => Bool.eq_false_iff.mpr fun hdirty => hnot ⟨hidle, hdirty⟩⟩

theorem Legal.pollTrigger {s t : State} (h : Legal s) (hclean : s.isRunning = false → s.hwDirty = false)
    (ht : pollTrigger s = .ok t) : Legal t := by
  obtain ⟨hidle, -, -, ⟨-, rfl⟩ | ⟨hmode, hs⟩⟩ | ⟨-, rfl⟩ := pollTrigger_ok ht
  · exact h.of_view rfl
  · exact h.start (State.run_ne_running hidle) hmode (hclean hidle) hs
  · exact h

theorem Legal.execPoll {s t : State} (h : Legal s) (ht : execPoll s = .next t) : Legal t := by
  obtain ⟨u, hu, hpoll⟩ := execPoll_next ht
  obtain ⟨hlegal, hclean⟩ := h.pollReconfig hu
  exact hlegal.pollTrigger hclean hpoll

/-- The interrupt is enabled in RUNNING alone, so the handler works on a primed state (R64 item 9). -/
theorem Legal.execCycle {s t : State} (h : Legal s) (ht : execCycle s = .next t) : Legal t := by
  obtain ⟨-, rfl⟩ | ⟨hirq, hc⟩ := execCycle_next ht
  · exact h
  obtain ⟨-, rfl⟩ | ⟨-, -, u, hu, rfl⟩ := cycleHandler_ok hc
  · exact h.toIdle
  have hrun := h.irqEnabled.mp hirq
  obtain ⟨hprimed, hlevels, hirqEn, hstat, hen⟩ := (h.primed hrun).dutyPass hu
  have henabled (sl : Slot) : (u.ch.get sl).enabled = slotActive u.phases sl := by
    rw [hen, Bool.eq_iff_iff, h.enabledSlots sl, and_iff_right hrun, State.phases, State.phases, hstat]
  have hlegal : Legal u := hprimed.legal (hirqEn.trans hirq) henabled hlevels
  rw [State.advanceBurst_eq]
  exact hlegal.of_view rfl

theorem Legal.execDlyexp {s t : State} (h : Legal s) (ht : execDlyexp s = .next t) : Legal t := by
  cases ht
  split
  · exact h.of_view rfl
  · exact h

theorem Legal.execItfire {s t : State} (h : Legal s) (ht : execItfire s = .next t) : Legal t := by
  cases ht
  split
  · exact h.of_view rfl
  · exact h

/-! ### The default configuration -/

/-- The default registers of a legal parameter record are legal (R62, R64). -/
theorem staticLegal_defaults {p : Params} (h : p.wf = true) : StaticLegal p (StaticConfig.defaults p) := by
  obtain ⟨-, -, hslots, hcarrier, -⟩ := (Params.wf_iff p).mp h
  simp only [Params.carrierWf, Bool.and_eq_true, decide_eq_true_eq] at hcarrier
  simp only [Params.slotsWf, Bool.and_eq_true, List.all_eq_true, decide_eq_true_eq, Bool.not_eq_true'] at hslots
  obtain ⟨⟨⟨hfreq, hmargin⟩, -⟩, hmin⟩ := hcarrier
  obtain ⟨hgpio, hclash⟩ := hslots
  exact {
    freqLegal        := hfreq
    marginBelowHalf  := hmargin
    minDutyRange     := hmin
    gpioExists       := fun sl => hgpio sl sl.mem_all
    channelsDistinct := fun a b hab heq => by
      have hno := hclash a a.mem_all b b.mem_all
      simp only [Params.slotsClash, Bool.and_eq_false_iff, decide_eq_false_iff_not] at hno
      exact hno.elim (fun hne => hne hab) fun hne => hne heq
    onePhaseDirect   := fun _ => rfl }

theorem runtimeLegal_defaults {p : Params} (h : p.wf = true) :
    RuntimeLegal (StaticConfig.defaults p) (RuntimeParams.defaults p) := by
  obtain ⟨-, -, -, hcarrier, hruntime⟩ := (Params.wf_iff p).mp h
  simp only [Params.carrierWf, Bool.and_eq_true, decide_eq_true_eq] at hcarrier
  simp only [Params.runtimeWf, Bool.and_eq_true, decide_eq_true_eq] at hruntime
  obtain ⟨⟨-, hspeed⟩, -⟩ := hcarrier
  obtain ⟨⟨⟨⟨h0, h1⟩, h2⟩, hmod⟩, hangle⟩ := hruntime
  exact {
    dutyRange     := fun k => match k with
      | .p0 => h0
      | .p1 => h1
      | .p2 => h2
    modIndexRange := hmod
    angleRange    := hangle
    speedBound    := hspeed }

/-- `RSTDONE` restores the defaults in IDLE alone (R294). -/
theorem Legal.execRstdone {s t : State} (h : Legal s) (ht : execRstdone s = .next t) : Legal t := by
  obtain ⟨-, hidle, rfl⟩ | ⟨-, rfl⟩ := execRstdone_next ht
  · have hstored := h.store (State.run_ne_running hidle) (staticLegal_defaults h.params)
      (runtimeLegal_defaults h.params)
    exact (hstored.configure (TriggerConfig.defaults s.params)).of_view rfl
  · exact h

/-- The state after reset is legal whatever the agents present. -/
theorem legal_resetWith {p : Params} (h : p.wf = true) : Legal (State.resetWith p) where
  params       := h
  static       := staticLegal_defaults h
  runtime      := runtimeLegal_defaults h
  dutyActive   := fun k => by
    have hzero : (State.resetWith p).eng.dutyActive.get k = 0 := PerPhase.get_tabulate _ k
    rw [hzero]
    exact Nat.zero_le _
  runningFlag  := fun hr => nomatch hr
  irqEnabled   := iff_of_false Bool.false_ne_true fun hr => nomatch hr
  enabledSlots := fun sl => by
    have hoff : ((State.resetWith p).ch.get sl).enabled = false := congrArg Channel.enabled (PerSlot.get_tabulate _ sl)
    rw [hoff]
    exact iff_of_false Bool.false_ne_true fun hon => nomatch hon.1
  runningMode  := fun hr => nomatch hr
  compiled     := fun _ hmode => absurd rfl hmode
  levelsApart  := fun hr => nomatch hr
  timerArmed   := iff_of_false Bool.false_ne_true fun hsource => nomatch hsource

/-! ### The setters -/

theorem firstFailing_cons_none (b : Bool) (st : Status) (l : List (Bool × Status)) :
    firstFailing ((b, st) :: l) = none ↔ b = false ∧ firstFailing l = none := by
  cases b
  · rw [firstFailing_false, and_iff_right rfl]
  · exact iff_of_false (Option.some_ne_none st) fun hno => nomatch hno.1

/-- A guarded setter keeps a state legal if its effect, behind its checks, does: a refusal answers and changes
nothing. -/
theorem Legal.guardedSet {s e t : State} {l : List (Bool × Status)} (h : Legal s) (ht : guardedSet s l e = .next t)
    (he : firstFailing l = none → Legal e) : Legal t := by
  obtain ⟨-, ⟨st, -, rfl⟩ | ⟨hpass, rfl⟩⟩ := guardedSet_next ht
  · exact h.respond st 0
  · exact (he hpass).respond .ok 0

theorem opModeOf_eq_ph1 {v : Word} (h : opModeOf v = some .ph1) : v = 1 := by
  by_contra hne
  simp only [opModeOf, if_neg hne] at h
  split_ifs at h <;> cases h

theorem Legal.execWrOpMode {v : Word} {s t : State} (h : Legal s) (ht : execWrOpMode v s = .next t) : Legal t := by
  refine h.guardedSet ht fun hpass => ?_
  simp only [firstFailing_cons_none, firstFailing_nil, and_true, Bool.and_eq_false_iff, decide_eq_false_iff_not,
    modulates, ne_eq, not_not] at hpass
  obtain ⟨hidle, -, hone⟩ := hpass
  split
  next m hm =>
    refine h.storeStatic (State.run_ne_running hidle) ?_ h.runtime.speedBound
    refine { h.static with onePhaseDirect := fun hmode => hone.resolve_left fun hne => hne ?_ }
    have hmode : m = .ph1 := hmode
    exact opModeOf_eq_ph1 (hmode ▸ hm)
  next => exact h

theorem Legal.execWrCtrlMode {v : Word} {s t : State} (h : Legal s) (ht : execWrCtrlMode v s = .next t) : Legal t := by
  refine h.guardedSet ht fun hpass => ?_
  simp only [firstFailing_cons_none, firstFailing_nil, and_true, Bool.and_eq_false_iff, decide_eq_false_iff_not,
    ne_eq, not_not] at hpass
  obtain ⟨hidle, -, hone⟩ := hpass
  split
  next m hm =>
    refine h.storeStatic (State.run_ne_running hidle) ?_ h.runtime.speedBound
    refine { h.static with onePhaseDirect := fun hmode => ?_ }
    obtain rfl : v = 0 := hone.resolve_left fun hne => hne hmode
    exact (Option.some.inj hm).symm
  next => exact h

theorem Legal.execWrFreq {v : Word} {s t : State} (h : Legal s) (ht : execWrFreq v s = .next t) : Legal t := by
  refine h.guardedSet ht fun hpass => ?_
  simp only [firstFailing_cons_none, firstFailing_nil, and_true, Bool.not_eq_false'] at hpass
  obtain ⟨hidle, hfreq, hmargin, hspeed⟩ := hpass
  exact h.storeStatic (State.run_ne_running hidle) { h.static with freqLegal := hfreq, marginBelowHalf := hmargin }
    hspeed

theorem Legal.execWrDeadtime {v : Word} {s t : State} (h : Legal s) (ht : execWrDeadtime v s = .next t) : Legal t := by
  refine h.guardedSet ht fun hpass => ?_
  simp only [firstFailing_cons_none, firstFailing_nil, and_true, Bool.not_eq_false'] at hpass
  obtain ⟨hidle, hmargin⟩ := hpass
  exact h.storeStatic (State.run_ne_running hidle) { h.static with marginBelowHalf := hmargin } h.runtime.speedBound

theorem Legal.execWrMinDuty {v : Word} {s t : State} (h : Legal s) (ht : execWrMinDuty v s = .next t) : Legal t := by
  refine h.guardedSet ht fun hpass => ?_
  simp only [firstFailing_cons_none, firstFailing_nil, and_true, Bool.not_eq_false', decide_eq_false_iff_not,
    not_lt] at hpass
  obtain ⟨hidle, hrange, hmargin⟩ := hpass
  exact h.storeStatic (State.run_ne_running hidle) { h.static with marginBelowHalf := hmargin, minDutyRange := hrange }
    h.runtime.speedBound

/-- One slot replaced by a GPIO that exists and whose channel no other slot has (R46, R277). -/
theorem StaticLegal.setSlot {p : Params} {c : StaticConfig} (h : StaticLegal p c) (sl : Slot) (x : SlotCfg)
    (hgpio : x.gpio.toNat < p.numGpio)
    (hfree : ∀ other, other ≠ sl → chanOf p (c.ph.get other).gpio ≠ chanOf p x.gpio) :
    StaticLegal p { c with ph := c.ph.set sl x } :=
  { h with
    gpioExists := fun a => by
      rw [PerSlot.get_set]
      split
      · exact hgpio
      · exact h.gpioExists a
    channelsDistinct := fun a b hab => by
      rw [PerSlot.get_set, PerSlot.get_set]
      split
      next ha =>
        subst ha
        rw [if_neg hab.symm]
        exact (hfree b hab.symm).symm
      next ha =>
        split
        · exact hfree a ha
        · exact h.channelsDistinct a b hab }

theorem Legal.wrSlot {sl : Slot} {v : Word} {s t : State} (h : Legal s) (ht : wrSlot sl v s = .next t) : Legal t := by
  refine h.guardedSet ht fun hpass => ?_
  simp only [firstFailing_cons_none, firstFailing_nil, and_true, decide_eq_false_iff_not, not_le] at hpass
  obtain ⟨hidle, -, -, hgpio, hfree⟩ := hpass
  refine h.storeStatic (State.run_ne_running hidle) (h.static.setSlot sl _ hgpio fun other hne heq => ?_)
    h.runtime.speedBound
  exact Bool.eq_false_iff.mp hfree ((s.channelInUse_iff sl _).mpr ⟨other, hne, heq⟩)

theorem Legal.wrDuty {k : Phase} {v : Word} {s t : State} (h : Legal s) (ht : wrDuty k v s = .next t) : Legal t := by
  refine h.guardedSet ht fun hpass => h.storeRuntime { h.runtime with dutyRange := fun j => ?_ }
  simp only [firstFailing_cons_none, firstFailing_nil, and_true, decide_eq_false_iff_not, not_lt] at hpass
  rw [PerPhase.get_set]
  split
  · exact hpass
  · exact h.runtime.dutyRange j

theorem Legal.execWrModIndex {v : Word} {s t : State} (h : Legal s) (ht : execWrModIndex v s = .next t) : Legal t := by
  refine h.guardedSet ht fun hpass => h.storeRuntime { h.runtime with modIndexRange := ?_ }
  simpa only [firstFailing_cons_none, firstFailing_nil, and_true, decide_eq_false_iff_not, not_lt] using hpass

theorem Legal.execWrAngle {v : Word} {s t : State} (h : Legal s) (ht : execWrAngle v s = .next t) : Legal t :=
  h.guardedSet ht fun _ => h.storeRuntime { h.runtime with angleRange := wrapAngle_lt v }

theorem Legal.execWrSpeed {v : Word} {s t : State} (h : Legal s) (ht : execWrSpeed v s = .next t) : Legal t := by
  refine h.guardedSet ht fun hpass => h.storeRuntime { h.runtime with speedBound := ?_ }
  simpa only [firstFailing_cons_none, firstFailing_nil, and_true, Bool.not_eq_false'] using hpass

theorem Legal.execWrTrigSource {v : Word} {s t : State} (h : Legal s) (ht : execWrTrigSource v s = .next t) :
    Legal t := by
  refine h.guardedSet ht fun _ => ?_
  split
  next src _ => exact h.configure { s.trigger with source := src }
  next => exact h

theorem Legal.execWrBurstType {v : Word} {s t : State} (h : Legal s) (ht : execWrBurstType v s = .next t) :
    Legal t := by
  refine h.guardedSet ht fun _ => ?_
  split
  · exact h.of_view rfl
  · exact h

/-! ### The other host commands -/

theorem Legal.readCommand {r : Reg} {s t : State} (h : Legal s) (ht : readCommand s r = .next t) : Legal t := by
  obtain ⟨-, rfl⟩ := readCommand_next ht
  exact h.respond _ _

theorem Legal.trigCommand {src : TrigSource} {s t : State} (h : Legal s) (ht : trigCommand s src = .next t) :
    Legal t := by
  obtain ⟨-, rfl⟩ := trigCommand_next ht
  obtain ⟨-, hfire⟩ | ⟨-, hfire⟩ := s.fire_eq src
  · rw [hfire]
    exact h.of_view rfl
  · rw [hfire]
    exact h.respond _ _

/-- `ABORT` and `RSTDEF` let the running flag fall (R292, R293). -/
theorem Legal.execAbort {s t : State} (h : Legal s) (ht : execAbort s = .next t) : Legal t := by
  obtain ⟨-, rfl⟩ := hostCommand_next ht
  exact h.stopRunning.respond _ _

theorem Legal.execRstdef {s t : State} (h : Legal s) (ht : execRstdef s = .next t) : Legal t := by
  obtain ⟨-, rfl⟩ := hostCommand_next ht
  exact h.stopRunning.of_view rfl

/-! ### Every operation and every step -/

/-- Every operation keeps a legal state legal (R64). -/
theorem Legal.exec {i : Instr} {s t : State} (h : Legal s) (ht : exec i s = .next t) : Legal t := by
  cases i with
  | wrOpMode v => exact h.execWrOpMode ht
  | wrCtrlMode v => exact h.execWrCtrlMode ht
  | wrFreq v => exact h.execWrFreq ht
  | wrDeadtime v => exact h.execWrDeadtime ht
  | wrMinDuty v => exact h.execWrMinDuty ht
  | wrPh0Ls v | wrPh0Hs v | wrPh1Ls v | wrPh1Hs v | wrPh2Ls v | wrPh2Hs v => exact h.wrSlot ht
  | wrDuty0 v | wrDuty1 v | wrDuty2 v => exact h.wrDuty ht
  | wrModIndex v => exact h.execWrModIndex ht
  | wrAngle v => exact h.execWrAngle ht
  | wrSpeed v => exact h.execWrSpeed ht
  | wrTrigSource v => exact h.execWrTrigSource ht
  | wrBurstType v => exact h.execWrBurstType ht
  | wrTrigDelay v | wrTimerInterval v | wrBurstCount v | wrBurstDuration v =>
    exact h.guardedSet (l := []) ht fun _ => h.of_view rfl
  | rdOpMode | rdCtrlMode | rdFreq | rdDeadtime | rdMinDuty | rdPh0Ls | rdPh0Hs | rdPh1Ls | rdPh1Hs | rdPh2Ls | rdPh2Hs
  | rdDuty0 | rdDuty1 | rdDuty2 | rdModIndex | rdAngle | rdSpeed | rdTrigSource | rdTrigDelay | rdTimerInterval
  | rdBurstType | rdBurstCount | rdBurstDuration | rdStatus => exact h.readCommand ht
  | trigImmediate | trigInternalTimer | trigBus => exact h.trigCommand ht
  | abort => exact h.execAbort ht
  | rstdef => exact h.execRstdef ht
  | cycle => exact h.execCycle ht
  | poll => exact h.execPoll ht
  | dlyexp => exact h.execDlyexp ht
  | itfire => exact h.execItfire ht
  | rstdone => exact h.execRstdone ht

theorem State.clearWires_legalView (s : State) : s.clearWires.legalView = s.legalView := by
  have hch : s.clearWires.clearWires.ch = s.clearWires.ch := PerSlot.ext_get fun sl => by
    simp only [State.clearWires_ch_get]
  rw [State.legalView, State.legalView, hch]
  rfl

theorem Legal.clearWires {s : State} (h : Legal s) : Legal s.clearWires := h.of_view s.clearWires_legalView

theorem Legal.served {s : State} (h : Legal s) (pending : List Occasion) : Legal (s.served pending) :=
  h.clearWires.of_view rfl

theorem Legal.servedHost {s : State} (h : Legal s) (c : HostCmd) (pending : List Occasion) :
    Legal (s.servedHost c pending) := (h.served pending).of_view rfl

/-- The fall of the wires and what is taken from the ports are outside the invariant; the rest of a step is an
operation. -/
theorem Legal.step {s t : State} (h : Legal s) (ht : step s = .next t) : Legal t := by
  obtain ⟨-, rfl⟩ | ⟨e, pending, -, hexec⟩ | ⟨c, pending, -, ⟨i, -, hexec⟩ | ⟨-, rfl⟩⟩ := step_next ht
  · exact h.clearWires
  · exact (h.served pending).exec hexec
  · exact (h.servedHost c pending).exec hexec
  · exact (h.servedHost c pending).respond .illegal 0

/-- Settles O52: the invariant is kept by every operation, so by every step. -/
theorem everyStepKeepsTheStateLegal : Obligations.EveryStepKeepsTheStateLegal :=
  fun _ _ h ht => h.step ht

/-! ### The reset state -/

/-- `STATUS` is 0 when neither of its bits is set (R58). -/
theorem State.statusWord_eq_zero {s : State} (hidle : s.eng.run ≠ .running) (hflag : s.running = false) :
    s.statusWord = 0 := by
  rw [State.statusWord, State.isRunning, decide_eq_false hidle, hflag]
  decide

/-- Settles O14: every value R63 states, read off the reset state. -/
theorem resetLeavesTheStatedValues : Obligations.ResetLeavesTheStatedValues := by
  intro p
  refine ⟨rfl, rfl, rfl, rfl, rfl, rfl, rfl, rfl, rfl, rfl, rfl, rfl, rfl, rfl, rfl, rfl, rfl,
    State.statusWord_eq_zero (fun hr => nomatch hr) rfl, fun sl => ?_, rfl⟩
  exact congrArg Channel.enabled (PerSlot.get_tabulate _ sl)

/-- P0 meets the constraints of R8: the table's are checked apart, the others are comparisons of its numbers. -/
theorem p0_wf : Params.p0.wf = true :=
  (Params.wf_iff _).mpr ⟨by decide, p0_tableWf, by decide, by decide, by decide⟩

/-- Settles O15: the invariant at reset, and P0 as a record that has it. -/
theorem resetStateIsLegal : Obligations.ResetStateIsLegal :=
  ⟨fun _ h => legal_resetWith h, p0_wf, legal_resetWith p0_wf⟩

/-! ### The wait of the host -/

/-- Settles O34: every host command begins with the test of `rst_wait`; the events are not the host's. -/
theorem hostCommandsAreStuckWhileWaiting : Obligations.HostCommandsAreStuckWhileWaiting := by
  intro i s hhost hwait
  cases i with
  | cycle | poll | dlyexp | itfire | rstdone => exact absurd hhost (by decide)
  | _ => exact hostCommand_of_waiting s _ hwait

theorem pendingRequests_cons (o : Occasion) (l : List Occasion) :
    pendingRequests (o :: l) = o.cmd.toList ++ pendingRequests l := by
  rw [pendingRequests, List.filterMap_cons]
  cases o.cmd <;> rfl

/-- A spent occasion holds no request, so dropping it loses none. -/
theorem pendingRequests_keepOccasion (o : Occasion) (l : List Occasion) :
    pendingRequests (keepOccasion o l) = o.cmd.toList ++ pendingRequests l := by
  unfold keepOccasion
  split
  next hspent =>
    rw [Occasion.spent, Bool.and_eq_true, Option.isNone_iff_eq_none] at hspent
    rw [hspent.1]
    rfl
  next => exact pendingRequests_cons o l

/-- All that taking an operation does to the pending requests: an event leaves them, and the host's is the oldest of them,
taken while the host does not wait (R85 (a), R349 (a), R61). -/
theorem takeNext_pendingRequests {w : Bool} {l rest : List Occasion} {x : Taken} (h : takeNext w l = some (x, rest)) :
    (∃ e, x = .event e ∧ pendingRequests rest = pendingRequests l) ∨
    (∃ c, x = .host c ∧ w = false ∧ pendingRequests l = c :: pendingRequests rest) := by
  induction l generalizing rest with
  | nil => cases h
  | cons o l ih =>
    rw [takeNext_cons] at h
    cases hsrc : o.choose w with
    | some src =>
      obtain ⟨hoffers, hmay⟩ := Occasion.choose_some hsrc
      simp only [hsrc, Option.map_eq_some_iff, Prod.mk.injEq] at h
      obtain ⟨y, hy, rfl, rfl⟩ := h
      rw [pendingRequests_keepOccasion, pendingRequests_cons]
      cases src with
      | ev e => exact .inl ⟨e, (Option.some.inj hy).symm, rfl⟩
      | host =>
        obtain ⟨c, hc, rfl⟩ := Option.map_eq_some_iff.mp hy
        refine .inr ⟨c, rfl, by simpa [mayServe] using hmay, ?_⟩
        rw [hc]
        rfl
    | none =>
      simp only [hsrc, Option.map_eq_some_iff, Prod.mk.injEq] at h
      obtain ⟨⟨y, rest'⟩, hy, rfl, rfl⟩ := h
      rw [pendingRequests_keepOccasion, pendingRequests_cons]
      obtain ⟨e, he, hkeep⟩ | ⟨c, hc, hw, htake⟩ := ih hy
      · exact .inl ⟨e, he, by rw [hkeep]⟩
      · have hnone : o.cmd = none := by
          have hno := Occasion.choose_none hsrc .host
          simpa [Occasion.offers, mayServe, hw] using hno
        exact .inr ⟨c, hc, hw, by rw [hnone]; exact htake⟩

theorem exec_keeps_sched {i : Instr} {s t : State} (h : exec i s = .next t) : t.sched = s.sched := by
  obtain ⟨-, hsched, -⟩ := (s.inputs_eq_iff t).mp (exec_keeps_inputs h)
  exact hsched

/-- Settles O11: while the host waits a step takes an event or nothing, and no operation writes the pending list. -/
theorem theWaitingHostIsNotServed : Obligations.TheWaitingHostIsNotServed := by
  intro s t hwait ht
  obtain ⟨-, rfl⟩ | ⟨e, pending, htake, hexec⟩ | ⟨c, pending, htake, -⟩ := step_next ht
  · rfl
  · obtain ⟨_, -, hkeep⟩ | ⟨_, hhost, -⟩ := takeNext_pendingRequests htake
    · rw [exec_keeps_sched hexec]
      exact hkeep
    · cases hhost
  · obtain ⟨_, hevent, -⟩ | ⟨_, -, hfree, -⟩ := takeNext_pendingRequests htake
    · cases hevent
    · exact absurd (hwait.symm.trans hfree) (by decide)

end Sys2Proof.Machine

/-! The host's requests: their order (R85, R349) and the byte-addressed placement (R75); and which operation writes
which field (R86). -/

namespace Sys2Proof.Machine

/-! ### The order of the host's requests -/

/-- Settles O12: a step takes one operation from the ports, and no operation writes the pending list. -/
theorem hostRequestsAreServedInOrder : Obligations.HostRequestsAreServedInOrder := by
  intro s t ht
  obtain ⟨-, rfl⟩ | ⟨e, pending, htake, hexec⟩ | ⟨c, pending, htake, hserved⟩ := step_next ht
  · exact .inl rfl
  · obtain ⟨_, -, hkeep⟩ | ⟨_, hhost, -⟩ := takeNext_pendingRequests htake
    · rw [exec_keeps_sched hexec]
      exact .inl hkeep
    · cases hhost
  · obtain ⟨_, hevent, -⟩ | ⟨c', -, -, holdest⟩ := takeNext_pendingRequests htake
    · cases hevent
    · have hsched : t.sched = pending := by
        obtain ⟨i, -, hexec⟩ | ⟨-, rfl⟩ := hserved
        · exact exec_keeps_sched hexec
        · rfl
      rw [hsched]
      exact .inr ⟨c', holdest⟩

/-! ### The byte-addressed placement -/

/-- The byte address of a word address gives it back (R75). -/
theorem busWordAddr_four_mul (a : BitVec 8) : busWordAddr (4 * a.toNat) 4 = some a := by
  have ha := a.isLt
  rw [busWordAddr, if_pos (by omega), Nat.mul_div_cancel_left _ (by decide), BitVec.ofNat_toNat, BitVec.setWidth_eq]

/-- The bytes of a word, lowest first, are the word (R75). -/
theorem busWord_bytes (v : Word) :
    busWord [v.extractLsb' 0 8, v.extractLsb' 8 8, v.extractLsb' 16 8, v.extractLsb' 24 8] = v := by
  rw [busWord, BitVec.extractLsb'_append_extractLsb'_eq_extractLsb' (start₁ := 0) (start₂ := 8) rfl,
    BitVec.extractLsb'_append_extractLsb'_eq_extractLsb' (start₁ := 0) (start₂ := 16) rfl,
    BitVec.extractLsb'_append_extractLsb'_eq_extractLsb' (start₁ := 0) (start₂ := 24) rfl]
  exact BitVec.extractLsb'_eq_self

/-- An occasion with a host request alone is served from the host if it does not wait. -/
theorem takeNext_hostAlone (c : HostCmd) (arb : List Source) (rest : List Occasion) :
    takeNext false ({ cmd := some c, ev := 0, arb := arb } :: rest) = some (.host c, rest) := by
  rw [takeNext_cons]
  cases hsrc : Occasion.choose false { cmd := some c, ev := 0, arb := arb } with
  | none => exact absurd ⟨rfl, rfl⟩ (Occasion.choose_none hsrc .host)
  | some src =>
    obtain ⟨hoffers, -⟩ := Occasion.choose_some hsrc
    cases src with
    | host => rfl
    | ev e => simp [Occasion.offers] at hoffers

/-- Two host requests that stand for one command word make the same step (R75, R100). -/
theorem step_hostAlone_congr {s : State} (hfree : s.rstWait = false) {req req' : HostReq}
    (hword : hostReqWord req = hostReqWord req') (oe : Bool) (arb : List Source) (rest : List Occasion) :
    step { s with sched := { cmd := some { req := req, outEn := oe }, ev := 0, arb := arb } :: rest } =
      step { s with sched := { cmd := some { req := req', outEn := oe }, ev := 0, arb := arb } :: rest } := by
  have hinstr : hostInstr { req := req, outEn := oe } = hostInstr { req := req', outEn := oe } := by
    rw [hostInstr, hostInstr, hword]
  simp only [step, hfree, takeNext_hostAlone, hinstr]
  rfl

/-- Settles O9: a store and a load stand for their words, and a step depends on a request through its word alone. -/
theorem byteBusAccessesAreWordCommands : Obligations.ByteBusAccessesAreWordCommands := by
  intro a v
  have hstore : hostReqWord (.busWrite (4 * a.toNat)
      [v.extractLsb' 0 8, v.extractLsb' 8 8, v.extractLsb' 16 8, v.extractLsb' 24 8]) = some (cmdWord 1 a v) := by
    rw [hostReqWord, busWord_bytes]
    exact congrArg (Option.map fun b => cmdWord 1 b v) (busWordAddr_four_mul a)
  have hload : hostReqWord (.busRead (4 * a.toNat) 4) = some (cmdWord 2 a 0) :=
    congrArg (Option.map fun b => cmdWord 2 b 0) (busWordAddr_four_mul a)
  exact ⟨hstore, hload, fun s oe arb rest hfree =>
    ⟨step_hostAlone_congr hfree hstore oe arb rest, step_hostAlone_congr hfree hload oe arb rest⟩⟩

/-! ### What each operation writes -/

/-- All that each operation can write, with the direction in which it can move a flag (R86). -/
inductive Writes (s : State) : Instr → State → Prop
  /-- an event that is ignored, or has no effect -/
  | nothing (i : Instr) : Writes s i s
  /-- a host command answers, and stores configuration if it is a setter -/
  | store {i : Instr} (hhost : fromHost i = true) (c : StaticConfig) (r : RuntimeParams) (g : TriggerConfig)
      (b : BurstConfig) {dirty rl : Bool} (hdirty : s.hwDirty = true → dirty = true)
      (hrl : s.reload = true → rl = true) (rsp : Option RspWord) :
      Writes s i
        { s with stat := c, runtime := r, trigger := g, burst := b, hwDirty := dirty, reload := rl, rsp := rsp }
  /-- the trigger source with its timer (R181) -/
  | configure {v : Word} (g : TriggerConfig) (armed : Bool) {us : Word} (hus : us ≠ s.itimerUs → v = 1)
      (rsp : Option RspWord) :
      Writes s (.wrTrigSource v) { s with trigger := g, itimerArmed := armed, itimerUs := us, rsp := rsp }
  /-- `ARM_DELAY` from a host command or the internal timer (R183, R185) -/
  | arm {i : Instr} (hi : i ∈ [Instr.trigImmediate, .trigInternalTimer, .trigBus, .itfire]) (us : Word)
      {rsp : Option RspWord} (hrsp : rsp ≠ s.rsp → fromHost i = true) :
      Writes s i { s with delayPending := true, delayUs := us, rsp := rsp }
  /-- the running flag falls (R292) -/
  | abort (rsp : Option RspWord) : Writes s .abort { s with running := false, rsp := rsp }
  /-- the running flag falls and the host waits, unanswered (R293) -/
  | rstdef : Writes s .rstdef { s with running := false, rstWait := true }
  /-- the handler: a duty pass, or the transition to IDLE (R230, R236) -/
  | cycle (e : Engine) (ch : PerSlot Channel) (irq : Bool) {run rl trig : Bool}
      (hrun : s.running = false → run = false) (hrl : s.reload = false → rl = false)
      (htrig : s.trigPending = false → trig = false) :
      Writes s .cycle { s with eng := e, ch := ch, irqEn := irq, running := run, reload := rl, trigPending := trig }
  /-- the reconfiguration and the start (R210 to R214) -/
  | poll (e : Engine) (d : Derived) (ch : PerSlot Channel) (irq : Bool) (irqChan : Nat) {run dirty rl trig : Bool}
      (hrun : s.running = true → run = true) (hdirty : s.hwDirty = false → dirty = false)
      (hrl : s.reload = false → rl = false) (htrig : s.trigPending = false → trig = false) :
      Writes s .poll
        { s with eng := e, drv := d, ch := ch, irqEn := irq, irqChan := irqChan, running := run, hwDirty := dirty,
                 reload := rl, trigPending := trig }
  /-- the delay ends in a trigger (R184, R186) -/
  | dlyexp : Writes s .dlyexp { s with trigPending := true, delayPending := false }
  /-- the restore, with the answer to the outstanding `RSTDEF` (R294) -/
  | rstdone (c : StaticConfig) (r : RuntimeParams) (g : TriggerConfig) (b : BurstConfig) (armed : Bool)
      (rsp : Option RspWord) :
      Writes s .rstdone
        { s with stat := c, runtime := r, trigger := g, burst := b, hwDirty := true, reload := true,
                 itimerArmed := armed, rstWait := false, rsp := rsp }

/-- Every host command may answer and leave the rest. -/
theorem Writes.answer {i : Instr} (hhost : fromHost i = true) (s : State) (rsp : Option RspWord) :
    Writes s i { s with rsp := rsp } := .store hhost s.stat s.runtime s.trigger s.burst id id rsp

/-- A guarded setter answers, behind its effect if its checks hold. -/
theorem guardedSet_writes {i : Instr} (hhost : fromHost i = true) {s e t : State} {l : List (Bool × Status)}
    (h : guardedSet s l e = .next t) (he : ∀ rsp, Writes s i { e with rsp := rsp }) : Writes s i t := by
  obtain ⟨-, ⟨st, -, rfl⟩ | ⟨-, rfl⟩⟩ := guardedSet_next h
  · exact .answer hhost s _
  · exact he _

theorem storeStatic_writes {i : Instr} (hhost : fromHost i = true) (s : State) (c : StaticConfig)
    (rsp : Option RspWord) : Writes s i { s.storeStatic c with rsp := rsp } :=
  .store hhost c s.runtime s.trigger s.burst (fun _ => rfl) id rsp

theorem storeRuntime_writes {i : Instr} (hhost : fromHost i = true) (s : State) (r : RuntimeParams)
    (rsp : Option RspWord) : Writes s i { s.storeRuntime r with rsp := rsp } :=
  .store hhost s.stat r s.trigger s.burst id (fun _ => rfl) rsp

theorem storeTrigger_writes {i : Instr} (hhost : fromHost i = true) (s : State) (g : TriggerConfig)
    (rsp : Option RspWord) : Writes s i { s.storeTrigger g with rsp := rsp } :=
  .store hhost s.stat s.runtime g s.burst id id rsp

theorem storeBurst_writes {i : Instr} (hhost : fromHost i = true) (s : State) (b : BurstConfig)
    (rsp : Option RspWord) : Writes s i { s.storeBurst b with rsp := rsp } :=
  .store hhost s.stat s.runtime s.trigger b id id rsp

theorem trigSourceOf_eq_internalTimer {v : Word} (h : trigSourceOf v = some .internalTimer) : v = 1 := by
  by_contra hne
  simp only [trigSourceOf, if_neg hne] at h
  split_ifs at h <;> cases h

/-- `WR TRIG_SOURCE` programs the timer for the internal timer alone (R181, R282). -/
theorem execWrTrigSource_writes {v : Word} {s t : State} (h : execWrTrigSource v s = .next t) :
    Writes s (.wrTrigSource v) t := by
  refine guardedSet_writes rfl h fun rsp => ?_
  split
  next src hsrc =>
    refine .configure _ _ (fun hne => ?_) rsp
    have htimer : src = .internalTimer := by
      by_contra hother
      exact hne (if_neg hother)
    exact trigSourceOf_eq_internalTimer (htimer ▸ hsrc)
  next => exact .answer rfl s rsp

theorem readCommand_writes {i : Instr} (hhost : fromHost i = true) {s t : State} {r : Reg}
    (h : readCommand s r = .next t) : Writes s i t := by
  obtain ⟨-, rfl⟩ := readCommand_next h
  exact .answer hhost s _

theorem trigCommand_writes {i : Instr} (hhost : fromHost i = true)
    (hi : i ∈ [Instr.trigImmediate, .trigInternalTimer, .trigBus, .itfire]) {s t : State} {src : TrigSource}
    (h : trigCommand s src = .next t) : Writes s i t := by
  obtain ⟨-, rfl⟩ := trigCommand_next h
  obtain ⟨-, hfire⟩ | ⟨-, hfire⟩ := s.fire_eq src <;> rw [hfire]
  · exact .arm hi _ fun _ => hhost
  · exact .answer hhost s _

theorem execAbort_writes {s t : State} (h : execAbort s = .next t) : Writes s .abort t := by
  obtain ⟨-, rfl⟩ := hostCommand_next h
  exact .abort _

theorem execRstdef_writes {s t : State} (h : execRstdef s = .next t) : Writes s .rstdef t := by
  obtain ⟨-, rfl⟩ := hostCommand_next h
  exact .rstdef

/-- The duty pass writes working registers and levels, and clears the reload flag (R240, R251). -/
theorem dutyPass_frame {force : Bool} {s t : State} (h : dutyPass force s = .ok t) :
    ∃ e c, t = { s with eng := e, ch := c, reload := false } := by
  obtain ⟨u, hu, rfl⟩ := dutyPass_ok h
  obtain ⟨acc, delta, duties, rfl⟩ := refreshDuties_frame hu
  exact ⟨_, _, rfl⟩

/-- What `START` writes (R214). -/
theorem start_frame {s t : State} (h : start s = .ok t) :
    ∃ e c, t =
      { s with eng := e, ch := c, trigPending := false, running := true, reload := false, irqEn := true } := by
  obtain ⟨u, hu, rfl⟩ := start_ok h
  obtain ⟨e, c, rfl⟩ := dutyPass_frame hu
  exact ⟨_, _, rfl⟩

/-- What part 1 of `POLL` writes (R211). -/
theorem pollReconfig_frame {s t : State} (h : pollReconfig s = .ok t) :
    ∃ e d c i dirty, (s.hwDirty = false → dirty = false) ∧
      t = { s with eng := e, drv := d, ch := c, irqChan := i, hwDirty := dirty } := by
  obtain ⟨-, -, -, rfl⟩ | ⟨-, rfl⟩ := pollReconfig_ok h
  · exact ⟨_, _, _, _, false, fun _ => rfl, rfl⟩
  · exact ⟨_, _, _, _, _, id, rfl⟩

theorem execPoll_writes {s t : State} (h : execPoll s = .next t) : Writes s .poll t := by
  obtain ⟨u, hu, ht⟩ := execPoll_next h
  obtain ⟨e, d, c, i, dirty, hdirty, rfl⟩ := pollReconfig_frame hu
  obtain ⟨-, -, -, ⟨-, rfl⟩ | ⟨-, hstart⟩⟩ | ⟨-, rfl⟩ := pollTrigger_ok ht
  · exact .poll e d c s.irqEn i id hdirty id fun _ => rfl
  · obtain ⟨e', c', rfl⟩ := start_frame hstart
    exact .poll e' d c' true i (fun _ => rfl) hdirty (fun _ => rfl) fun _ => rfl
  · exact .poll e d c s.irqEn i id hdirty id id

theorem execCycle_writes {s t : State} (h : execCycle s = .next t) : Writes s .cycle t := by
  obtain ⟨-, rfl⟩ | ⟨-, hc⟩ := execCycle_next h
  · exact .nothing _
  obtain ⟨-, rfl⟩ | ⟨-, -, u, hu, rfl⟩ := cycleHandler_ok hc
  · exact .cycle _ _ false (fun _ => rfl) id fun _ => rfl
  · obtain ⟨e, c, rfl⟩ := dutyPass_frame hu
    rw [State.advanceBurst_eq]
    exact .cycle _ c s.irqEn id (fun _ => rfl) id

theorem execDlyexp_writes {s t : State} (h : execDlyexp s = .next t) : Writes s .dlyexp t := by
  cases h
  split
  · exact .dlyexp
  · exact .nothing _

theorem execItfire_writes {s t : State} (h : execItfire s = .next t) : Writes s .itfire t := by
  cases h
  split
  · exact .arm (by decide) _ fun hne => absurd rfl hne
  · exact .nothing _

/-- `RSTDONE` cancels the timer and leaves its interval: the default source is BUS (R62, R181, R294). -/
theorem execRstdone_writes {s t : State} (h : execRstdone s = .next t) : Writes s .rstdone t := by
  obtain ⟨-, -, rfl⟩ | ⟨-, rfl⟩ := execRstdone_next h
  · exact .rstdone ..
  · exact .nothing _

/-- Every operation writes what its kind may: the setters, the reads, the other host commands, the events. -/
theorem exec_writes {i : Instr} {s t : State} (h : exec i s = .next t) : Writes s i t := by
  cases i with
  | wrOpMode v | wrCtrlMode v =>
    refine guardedSet_writes rfl h fun rsp => ?_
    split
    · exact storeStatic_writes rfl s _ rsp
    · exact .answer rfl s rsp
  | wrFreq v | wrDeadtime v | wrMinDuty v | wrPh0Ls v | wrPh0Hs v | wrPh1Ls v | wrPh1Hs v | wrPh2Ls v | wrPh2Hs v =>
    exact guardedSet_writes rfl h (storeStatic_writes rfl s _)
  | wrDuty0 v | wrDuty1 v | wrDuty2 v | wrModIndex v | wrSpeed v =>
    exact guardedSet_writes rfl h (storeRuntime_writes rfl s _)
  | wrAngle v => exact guardedSet_writes (l := []) rfl h (storeRuntime_writes rfl s _)
  | wrTrigSource v => exact execWrTrigSource_writes h
  | wrTrigDelay v | wrTimerInterval v => exact guardedSet_writes (l := []) rfl h (storeTrigger_writes rfl s _)
  | wrBurstType v =>
    refine guardedSet_writes rfl h fun rsp => ?_
    split
    · exact storeBurst_writes rfl s _ rsp
    · exact .answer rfl s rsp
  | wrBurstCount v | wrBurstDuration v => exact guardedSet_writes (l := []) rfl h (storeBurst_writes rfl s _)
  | rdOpMode | rdCtrlMode | rdFreq | rdDeadtime | rdMinDuty | rdPh0Ls | rdPh0Hs | rdPh1Ls | rdPh1Hs | rdPh2Ls | rdPh2Hs
  | rdDuty0 | rdDuty1 | rdDuty2 | rdModIndex | rdAngle | rdSpeed | rdTrigSource | rdTrigDelay | rdTimerInterval
  | rdBurstType | rdBurstCount | rdBurstDuration | rdStatus => exact readCommand_writes rfl h
  | trigImmediate | trigInternalTimer | trigBus => exact trigCommand_writes rfl (by decide) h
  | abort => exact execAbort_writes h
  | rstdef => exact execRstdef_writes h
  | cycle => exact execCycle_writes h
  | poll => exact execPoll_writes h
  | dlyexp => exact execDlyexp_writes h
  | itfire => exact execItfire_writes h
  | rstdone => exact execRstdone_writes h

/-- Settles O57: the owners of each field are read off what each operation writes; a flag a constructor names can move
in that constructor's direction alone. -/
theorem fieldsHaveTheirOwners : Obligations.FieldsHaveTheirOwners := by
  intro i s t h
  replace h := exec_writes h
  cases h with
  | configure =>
    have hhost (v : Word) : fromHost (.wrTrigSource v) = true := rfl
    simp_all
  | abort =>
    have hhost : fromHost .abort = true := rfl
    simp_all
  | nothing | store | arm | rstdef | cycle | poll | dlyexp | rstdone => simp_all

end Sys2Proof.Machine

/-! The encodings (R101 to R119): the decoder of the command port per family, its round trip with the encoder, the rows of
the opcode table, and the words it rejects. -/

namespace Sys2Proof

/-! ### The decoder on the words of the encoder -/

theorem decodeCmd_wr (a : BitVec 8) (v : Word) : decodeCmd (cmdWord 1 a v) = decodeWr a v := by
  simp [decodeCmd]

theorem decodeCmd_rd (a : BitVec 8) (v : Word) : decodeCmd (cmdWord 2 a v) = decodeRd a v := by
  simp [decodeCmd]

/-- The word of a setter reads back as the register's `WR` row with the same data (R104). -/
theorem decode_encodeWr (r : Reg) (v : Word) : decode (encodeWr r v) = r.wrInstr v := by
  rw [encodeWr, decode, decodeCmd_wr, decodeWr, Reg.ofAddr_addr]

/-- The word of a read reads back as the register's `RD` row (R105). -/
theorem decode_encodeRd (r : Reg) : decode (encodeRd r) = .ok r.rdInstr := by
  rw [encodeRd, decode, decodeCmd_rd, decodeRd, Reg.ofAddr_addr]
  exact if_pos rfl

/-- Settles O1: each family's words read back, and each register's address names it. -/
theorem encodeThenDecodeIsIdentity : Obligations.EncodeThenDecodeIsIdentity := by
  intro i
  cases i with
  | wrOpMode v | wrCtrlMode v | wrFreq v | wrDeadtime v | wrMinDuty v | wrPh0Ls v | wrPh0Hs v | wrPh1Ls v | wrPh1Hs v
  | wrPh2Ls v | wrPh2Hs v | wrDuty0 v | wrDuty1 v | wrDuty2 v | wrModIndex v | wrAngle v | wrSpeed v | wrTrigSource v
  | wrTrigDelay v | wrTimerInterval v | wrBurstType v | wrBurstCount v | wrBurstDuration v => exact decode_encodeWr _ v
  | rdOpMode | rdCtrlMode | rdFreq | rdDeadtime | rdMinDuty | rdPh0Ls | rdPh0Hs | rdPh1Ls | rdPh1Hs | rdPh2Ls | rdPh2Hs
  | rdDuty0 | rdDuty1 | rdDuty2 | rdModIndex | rdAngle | rdSpeed | rdTrigSource | rdTrigDelay | rdTimerInterval
  | rdBurstType | rdBurstCount | rdBurstDuration | rdStatus => exact decode_encodeRd _
  | trigImmediate | trigInternalTimer | trigBus | abort | rstdef => rfl
  | cycle | poll | dlyexp | itfire | rstdone => rfl

/-! ### What the decoder accepts and rejects -/

/-- All the decoder of the command port can do: a family per operation code 1 to 5, a rejection of every other code. -/
theorem decodeCmd_cases (w : CmdWord) :
    (opField w = 1 ∧ decodeCmd w = decodeWr (addrField w) (dataField w)) ∨
    (opField w = 2 ∧ decodeCmd w = decodeRd (addrField w) (dataField w)) ∨
    (opField w = 3 ∧ decodeCmd w = decodeTrig (addrField w) (dataField w)) ∨
    (opField w = 4 ∧ decodeCmd w = decodeBare .abort (addrField w) (dataField w)) ∨
    (opField w = 5 ∧ decodeCmd w = decodeBare .rstdef (addrField w) (dataField w)) ∨
    ((opField w = 0 ∨ 6 ≤ (opField w).toNat) ∧ decodeCmd w = .error .reservedOp) := by
  rw [decodeCmd]
  split_ifs with h1 h2 h3 h4 h5
  · exact .inl ⟨h1, rfl⟩
  · exact .inr (.inl ⟨h2, rfl⟩)
  · exact .inr (.inr (.inl ⟨h3, rfl⟩))
  · exact .inr (.inr (.inr (.inl ⟨h4, rfl⟩)))
  · exact .inr (.inr (.inr (.inr (.inl ⟨h5, rfl⟩))))
  · exact .inr (.inr (.inr (.inr (.inr ⟨by bv_omega, rfl⟩))))

theorem Reg.ofAddr_eq_none {a : BitVec 8} : Reg.ofAddr a = none ↔ ∀ r : Reg, r.addr ≠ a := by
  simp only [Option.eq_none_iff_forall_ne_some, ne_eq, Reg.ofAddr_eq_some]

theorem decodeWr_eq_ok {a : BitVec 8} {v : Word} {i : Instr} :
    decodeWr a v = .ok i ↔ ∃ r : Reg, r.addr = a ∧ r.wrInstr v = .ok i := by
  simp only [← Reg.ofAddr_eq_some, decodeWr]
  cases Reg.ofAddr a <;> simp

theorem decodeRd_eq_ok {a : BitVec 8} {v : Word} {i : Instr} :
    decodeRd a v = .ok i ↔ ∃ r : Reg, r.addr = a ∧ v = 0 ∧ r.rdInstr = i := by
  simp only [← Reg.ofAddr_eq_some, decodeRd]
  cases Reg.ofAddr a <;> simp [ite_eq_iff]

theorem decodeTrig_eq_ok {a : BitVec 8} {v : Word} {i : Instr} :
    decodeTrig a v = .ok i ↔
      a = 0 ∧ (v = 0 ∧ .trigImmediate = i ∨ v = 1 ∧ .trigInternalTimer = i ∨ v = 2 ∧ .trigBus = i) := by
  unfold decodeTrig
  split_ifs <;> simp_all

theorem decodeBare_eq_ok {j i : Instr} {a : BitVec 8} {v : Word} :
    decodeBare j a v = .ok i ↔ a = 0 ∧ v = 0 ∧ j = i := by
  unfold decodeBare
  split_ifs with h <;> simp_all

/-- `STATUS` alone has no `WR` row (R104, R112). -/
theorem Reg.wrInstr_rejects_iff (r : Reg) (v : Word) : (∃ e, r.wrInstr v = .error e) ↔ r = .status := by
  cases r <;> simp [Reg.wrInstr]

/-- A `WR` is rejected at an unmapped address and at that of `STATUS` (R112). -/
theorem decodeWr_rejects_iff (a : BitVec 8) (v : Word) :
    (∃ e, decodeWr a v = .error e) ↔ (∀ r : Reg, r.addr ≠ a) ∨ a = 0x20 := by
  cases h : Reg.ofAddr a with
  | none => simpa [decodeWr, h] using .inl (Reg.ofAddr_eq_none.mp h)
  | some r =>
    obtain rfl := Reg.ofAddr_eq_some.mp h
    have hstatus : r.addr = 0x20 ↔ r = .status := by cases r <;> decide
    have hmapped : ¬ ∀ r' : Reg, r'.addr ≠ r.addr := fun h => h r rfl
    rw [hstatus, or_iff_right hmapped, decodeWr, Reg.ofAddr_addr]
    exact r.wrInstr_rejects_iff v

/-- An `RD` is rejected at an unmapped address and with data (R112). -/
theorem decodeRd_rejects_iff (a : BitVec 8) (v : Word) :
    (∃ e, decodeRd a v = .error e) ↔ (∀ r : Reg, r.addr ≠ a) ∨ v ≠ 0 := by
  cases h : Reg.ofAddr a with
  | none => simpa [decodeRd, h] using .inl (Reg.ofAddr_eq_none.mp h)
  | some r =>
    obtain rfl := Reg.ofAddr_eq_some.mp h
    simp [decodeRd, ite_eq_iff]

/-- A `TRIG` is rejected with an address, a bit in data[31:2] or the source 3 (R112). -/
theorem decodeTrig_rejects_iff (a : BitVec 8) (v : Word) :
    (∃ e, decodeTrig a v = .error e) ↔ a ≠ 0 ∨ v.extractLsb' 2 30 ≠ 0 ∨ v.extractLsb' 0 2 = 3 := by
  have hdata : v.extractLsb' 2 30 ≠ 0 ∨ v.extractLsb' 0 2 = 3 ↔ v ≠ 0 ∧ v ≠ 1 ∧ v ≠ 2 := by
    simp only [ne_eq, ← BitVec.toNat_inj, BitVec.extractLsb'_toNat, Nat.shiftRight_eq_div_pow, BitVec.toNat_ofNat,
      BitVec.ofNat_eq_ofNat]
    omega
  rw [hdata, decodeTrig]
  split_ifs <;> simp_all

/-- An `ABORT` or `RSTDEF` is rejected with an address or data (R112). -/
theorem decodeBare_rejects_iff (i : Instr) (a : BitVec 8) (v : Word) :
    (∃ e, decodeBare i a v = .error e) ↔ a ≠ 0 ∨ v ≠ 0 := by
  rw [decodeBare]
  split_ifs with h
  · simp [h]
  · simpa [← not_and_or] using h

/-- Settles O3: the rejections of each family, with its operation code. -/
theorem rejectedWordsAreTheIllegalOnes : Obligations.RejectedWordsAreTheIllegalOnes := by
  intro w
  have hhigh : w.extractLsb' 2 30 = (dataField w).extractLsb' 2 30 := by
    ext j hj
    simp [dataField]
  have hlow : w.extractLsb' 0 2 = (dataField w).extractLsb' 0 2 := by
    ext j hj
    simp [dataField]
  rw [hhigh, hlow]
  change _ ↔ (opField w = 0 ∨ 6 ≤ (opField w).toNat) ∨
    ((opField w = 1 ∨ opField w = 2) ∧ ∀ r : Reg, r.addr ≠ addrField w) ∨
    (opField w = 1 ∧ addrField w = 0x20) ∨ (opField w = 2 ∧ dataField w ≠ 0) ∨
    (opField w = 3 ∧ (addrField w ≠ 0 ∨ (dataField w).extractLsb' 2 30 ≠ 0 ∨ (dataField w).extractLsb' 0 2 = 3)) ∨
    ((opField w = 4 ∨ opField w = 5) ∧ (addrField w ≠ 0 ∨ dataField w ≠ 0))
  obtain ⟨hop, hdec⟩ | ⟨hop, hdec⟩ | ⟨hop, hdec⟩ | ⟨hop, hdec⟩ | ⟨hop, hdec⟩ | ⟨hop, hdec⟩ := decodeCmd_cases w
  · rw [hdec, decodeWr_rejects_iff, hop]; simp
  · rw [hdec, decodeRd_rejects_iff, hop]; simp
  · rw [hdec, decodeTrig_rejects_iff, hop]; simp
  · rw [hdec, decodeBare_rejects_iff, hop]; simp
  · rw [hdec, decodeBare_rejects_iff, hop]; simp
  · exact ⟨fun _ => .inl hop, fun _ => ⟨_, hdec⟩⟩

/-! ### The rows of the opcode table -/

/-- The `WR` row of a register: its operation code and address under the mask, the data free (R104). `STATUS`, which has
no setter, is not in `wrRows`. -/
def wrRow (r : Reg) : CmdRow where
  pattern := cmdWord 1 r.addr 0
  mask    := 0xFFF00000000
  instr v := (r.wrInstr v).toOption.getD .rdStatus

/-- A row that fixes every bit of the word (R105 to R108). -/
def wholeRow (op : BitVec 4) (a : BitVec 8) (v : Word) (i : Instr) : CmdRow where
  pattern := cmdWord op a v
  mask    := 0xFFFFFFFFFFF
  instr _ := i

def wrRows : List CmdRow := (Reg.all.filter fun r => decide (r ≠ .status)).map wrRow

def rdRows : List CmdRow := Reg.all.map fun r => wholeRow 2 r.addr 0 r.rdInstr

def bareRows : List CmdRow :=
  [wholeRow 3 0 0 .trigImmediate, wholeRow 3 0 1 .trigInternalTimer, wholeRow 3 0 2 .trigBus, wholeRow 4 0 0 .abort,
   wholeRow 5 0 0 .rstdef]

/-- The rows of the table, by family. -/
theorem cmdRows_eq : cmdRows = wrRows ++ rdRows ++ bareRows := rfl

theorem Reg.mem_all (r : Reg) : r ∈ Reg.all := by cases r <;> decide

theorem Event.mem_all (e : Event) : e ∈ Event.all := by cases e <;> decide

/-- Command words with the same fields are the same word, and conversely (R101). -/
theorem eq_cmdWord_iff {w : CmdWord} {op : BitVec 4} {a : BitVec 8} {v : Word} :
    w = cmdWord op a v ↔ opField w = op ∧ addrField w = a ∧ dataField w = v := by
  constructor
  · rintro rfl
    simp
  · rintro ⟨rfl, rfl, rfl⟩
    exact (cmdWord_fields w).symm

theorem wrRow_hits (r : Reg) (w : CmdWord) : (wrRow r).hits w ↔ opField w = 1 ∧ addrField w = r.addr := by
  have hmasked : w &&& 0xFFF00000000 = cmdWord (opField w) (addrField w) 0 := by
    rw [← cmdWord_and_wrMask _ _ (dataField w), cmdWord_fields]
  rw [CmdRow.hits, wrRow, hmasked, eq_cmdWord_iff]
  simp

@[simp] theorem wholeRow_instr (op : BitVec 4) (a : BitVec 8) (v d : Word) (i : Instr) :
    (wholeRow op a v i).instr d = i := rfl

theorem wholeRow_hits (op : BitVec 4) (a : BitVec 8) (v : Word) (i : Instr) (w : CmdWord) :
    (wholeRow op a v i).hits w ↔ opField w = op ∧ addrField w = a ∧ dataField w = v := by
  have hmasked : w &&& 0xFFFFFFFFFFF = w := BitVec.and_allOnes
  rw [CmdRow.hits, wholeRow, hmasked, eq_cmdWord_iff]

/-- A register other than `STATUS` has the operation of its `WR` row. -/
theorem Reg.wrInstr_eq_ok {r : Reg} {v : Word} {i : Instr} :
    r.wrInstr v = .ok i ↔ r ≠ .status ∧ (wrRow r).instr v = i := by
  cases r <;> simp [Reg.wrInstr, wrRow, Except.toOption]

/-- A `WR` row matches exactly the words that decode as a `WR`, and names their operation. -/
theorem exists_wrRow_iff (w : CmdWord) (i : Instr) :
    (∃ row ∈ wrRows, row.hits w ∧ row.instr (dataField w) = i) ↔
      opField w = 1 ∧ decodeWr (addrField w) (dataField w) = .ok i := by
  simp only [wrRows, List.mem_map, List.mem_filter, Reg.mem_all, decide_eq_true_eq, true_and, exists_exists_and_eq_and,
    wrRow_hits, decodeWr_eq_ok, Reg.wrInstr_eq_ok]
  grind

theorem exists_rdRow_iff (w : CmdWord) (i : Instr) :
    (∃ row ∈ rdRows, row.hits w ∧ row.instr (dataField w) = i) ↔
      opField w = 2 ∧ decodeRd (addrField w) (dataField w) = .ok i := by
  simp only [rdRows, List.mem_map, Reg.mem_all, true_and, exists_exists_eq_and, wholeRow_hits, decodeRd_eq_ok,
    wholeRow_instr]
  grind

theorem exists_bareRow_iff (w : CmdWord) (i : Instr) :
    (∃ row ∈ bareRows, row.hits w ∧ row.instr (dataField w) = i) ↔
      (opField w = 3 ∧ decodeTrig (addrField w) (dataField w) = .ok i) ∨
      (opField w = 4 ∧ decodeBare .abort (addrField w) (dataField w) = .ok i) ∨
      (opField w = 5 ∧ decodeBare .rstdef (addrField w) (dataField w) = .ok i) := by
  simp only [bareRows, List.mem_cons, List.not_mem_nil, or_false, exists_eq_or_imp, exists_eq_left, wholeRow_hits,
    decodeTrig_eq_ok, decodeBare_eq_ok, wholeRow_instr]
  tauto

/-- The words the decoder accepts, by family. -/
theorem decodeCmd_eq_ok {w : CmdWord} {i : Instr} :
    decodeCmd w = .ok i ↔
      (opField w = 1 ∧ decodeWr (addrField w) (dataField w) = .ok i) ∨
      (opField w = 2 ∧ decodeRd (addrField w) (dataField w) = .ok i) ∨
      (opField w = 3 ∧ decodeTrig (addrField w) (dataField w) = .ok i) ∨
      (opField w = 4 ∧ decodeBare .abort (addrField w) (dataField w) = .ok i) ∨
      (opField w = 5 ∧ decodeBare .rstdef (addrField w) (dataField w) = .ok i) := by
  obtain ⟨hop, hdec⟩ | ⟨hop, hdec⟩ | ⟨hop, hdec⟩ | ⟨hop, hdec⟩ | ⟨hop, hdec⟩ | ⟨hop, hdec⟩ := decodeCmd_cases w
  · simp [hdec, hop]
  · simp [hdec, hop]
  · simp [hdec, hop]
  · simp [hdec, hop]
  · simp [hdec, hop]
  · obtain ⟨h1, h2, h3, h4, h5⟩ :
        opField w ≠ 1 ∧ opField w ≠ 2 ∧ opField w ≠ 3 ∧ opField w ≠ 4 ∧ opField w ≠ 5 := by bv_omega
    simp only [hdec, h1, h2, h3, h4, h5, false_and, or_false, reduceCtorEq]

/-- Two rows whose patterns differ where both masks look match no word in common. -/
theorem CmdRow.not_both_hit {a b : CmdRow} (h : a.pattern &&& b.mask ≠ b.pattern &&& a.mask) (w : CmdWord) :
    ¬ (a.hits w ∧ b.hits w) := by
  rintro ⟨ha, hb⟩
  apply h
  rw [← ha, ← hb, BitVec.and_assoc, BitVec.and_assoc, BitVec.and_comm a.mask]

theorem cmdRows_patterns_differ :
    cmdRows.Pairwise fun a b => a.pattern &&& b.mask ≠ b.pattern &&& a.mask := by decide +kernel

/-- The strobes of an event word are its bits that are set (R109). -/
theorem mem_strobes {w : EvWord} {e : Event} : e ∈ strobes w ↔ w.getLsbD e.bit = true := by
  rw [strobes, List.mem_filter, and_iff_right e.mem_all]

/-- Settles O2: the rows match per family what the decoder accepts per family; no two patterns agree. -/
theorem decoderPerformsTheMatchingRow : Obligations.DecoderPerformsTheMatchingRow := by
  refine ⟨fun w i => ?_, rfl, cmdRows_patterns_differ.imp CmdRow.not_both_hit, fun w e => mem_strobes⟩
  have hdata : w.setWidth 32 = dataField w := BitVec.setWidth_eq_extractLsb' (by decide)
  simp only [hdata, decodeCmd_eq_ok, cmdRows_eq, List.mem_append, or_and_right, exists_or, exists_wrRow_iff,
    exists_rdRow_iff, exists_bareRow_iff, or_assoc]

/-- Settles O4: nine fixed words, decoded. -/
theorem specWordsDecode : Obligations.SpecWordsDecode := by
  unfold Obligations.SpecWordsDecode
  decide

end Sys2Proof

/-! A step on one presented operation (R100, R109, R112) and the events that are not enabled (R109). -/

namespace Sys2Proof.Machine

/-! ### A host request alone -/

theorem hostInstr_eq_some {c : HostCmd} {w : CmdWord} {i : Instr} (hword : hostReqWord c.req = some w)
    (hdec : decodeCmd w = .ok i) : hostInstr c = some i := by
  simp only [hostInstr, hword, hdec]

theorem hostInstr_eq_none {c : HostCmd} (h : ∀ w, hostReqWord c.req = some w → ∃ e, decodeCmd w = .error e) :
    hostInstr c = none := by
  cases hword : hostReqWord c.req with
  | none => simp only [hostInstr, hword]
  | some w =>
    obtain ⟨e, hdec⟩ := h w hword
    simp only [hostInstr, hword, hdec]

/-- A host that does not wait is served the request it presents alone. -/
theorem takeNext_of_hostAlone {s : State} {c : HostCmd} {arb : List Source} {rest : List Occasion}
    (hfree : s.rstWait = false) (hsched : s.sched = { cmd := some c, ev := 0, arb := arb } :: rest) :
    takeNext s.rstWait s.sched = some (.host c, rest) := by
  rw [hfree, hsched, takeNext_hostAlone]

/-- Settles O5: the request alone is taken, and its word is the operation. -/
theorem stepRunsThePresentedCommand : Obligations.StepRunsThePresentedCommand := by
  intro s req w oe arb rest i hfree hsched hword hdec
  have hinstr : hostInstr { req := req, outEn := oe } = some i := hostInstr_eq_some hword hdec
  simp only [step, takeNext_of_hostAlone hfree hsched, hinstr]
  rfl

/-! ### A request that is no operation -/

/-- A word address is that of an aligned access of four bytes, at four times the address (R75, R78). -/
theorem busWordAddr_eq_some {n size : Nat} {a : BitVec 8} (h : busWordAddr n size = some a) :
    size = 4 ∧ n % 4 = 0 ∧ n < 1024 ∧ n = 4 * a.toNat := by
  unfold busWordAddr at h
  split_ifs at h with hword
  obtain ⟨hsize, halign, hlt⟩ := hword
  cases h
  rw [BitVec.toNat_ofNat]
  omega

/-- At the byte address of no register the word address is unmapped (R78). -/
theorem unmapped_of_byteAddr {a : BitVec 8} (h : ∀ r : Reg, 4 * r.addr.toNat ≠ 4 * a.toNat) (r : Reg) : r.addr ≠ a :=
  fun hr => h r (by rw [hr])

/-- The word of a malformed request, if it has one, is rejected (R78, R112). -/
theorem malformed_rejected {req : HostReq} (h : malformed req) {w : CmdWord} (hword : hostReqWord req = some w) :
    ∃ e, decodeCmd w = .error e := by
  obtain ⟨w', e, rfl, hdec⟩ | ⟨n, bytes, rfl, hbad⟩ | ⟨n, size, rfl, hbad⟩ := h
  · cases hword
    exact ⟨e, hdec⟩
  · obtain ⟨a, haddr, rfl⟩ := Option.map_eq_some_iff.mp hword
    obtain ⟨hsize, halign, hlt, rfl⟩ := busWordAddr_eq_some haddr
    rw [decodeCmd_wr, decodeWr_rejects_iff]
    obtain hbad | hbad | hbad | hstatus | hunmapped := hbad
    · exact absurd halign hbad
    · exact absurd hsize hbad
    · exact absurd hlt (Nat.not_lt.mpr hbad)
    · exact .inr (by bv_omega)
    · exact .inl (unmapped_of_byteAddr hunmapped)
  · obtain ⟨a, haddr, rfl⟩ := Option.map_eq_some_iff.mp hword
    obtain ⟨hsize, halign, hlt, rfl⟩ := busWordAddr_eq_some haddr
    rw [decodeCmd_rd, decodeRd_rejects_iff]
    obtain hbad | hbad | hbad | hunmapped := hbad
    · exact absurd halign hbad
    · exact absurd hsize hbad
    · exact absurd hlt (Nat.not_lt.mpr hbad)
    · exact .inl (unmapped_of_byteAddr hunmapped)

/-- Settles O8: a malformed request has no operation, and the step answers it ILLEGAL. -/
theorem malformedRequestsAnswerIllegal : Obligations.MalformedRequestsAnswerIllegal := by
  intro s req oe arb rest hfree hsched hbad
  have hinstr : hostInstr { req := req, outEn := oe } = none := hostInstr_eq_none fun _ => malformed_rejected hbad
  simp only [step, takeNext_of_hostAlone hfree hsched, hinstr]
  rfl

/-! ### An event alone -/

/-- A word that is one operation has one strobe, that of its event (R109). -/
theorem decodeEv_eq_ok {w : EvWord} {i : Instr} (h : decodeEv w = .ok i) : ∃ e, strobes w = [e] ∧ i = e.instr := by
  unfold decodeEv at h
  split at h
  · rename_i e he
    cases h
    exact ⟨e, he, rfl⟩
  · cases h

/-- An occasion with one strobe alone is served from that event, and nothing is left of it. -/
theorem takeNext_eventAlone (hostWaits : Bool) {w : EvWord} {e : Event} (hw : strobes w = [e]) (arb : List Source)
    (rest : List Occasion) :
    takeNext hostWaits ({ cmd := none, ev := w, arb := arb } :: rest) = some (.event e, rest) := by
  have hbit (f : Event) : w.getLsbD f.bit = true ↔ f = e := by rw [← mem_strobes, hw, List.mem_singleton]
  rw [takeNext_cons]
  cases hsrc : Occasion.choose hostWaits { cmd := none, ev := w, arb := arb } with
  | none => exact absurd ⟨(hbit e).mpr rfl, rfl⟩ (Occasion.choose_none hsrc (.ev e))
  | some src =>
    obtain ⟨hoffers, -⟩ := Occasion.choose_some hsrc
    cases src with
    | host => cases hoffers
    | ev f =>
      obtain rfl := (hbit f).mp hoffers
      obtain ⟨hcmd, -, hleft⟩ := Occasion.leftOver_without { cmd := none, ev := w, arb := arb } (.ev f)
      have hev := evWord_eq_zero fun g => (hleft g).trans <| by
        by_cases hg : g = f
        · simp [hg]
        · simp [Bool.eq_false_iff.mpr (mt (hbit g).mp hg)]
      simp [Occasion.take, keepOccasion, Occasion.spent, hcmd, hev]

/-- Settles O6: the event alone is taken, whether or not the host waits. -/
theorem stepRunsThePresentedEvent : Obligations.StepRunsThePresentedEvent := by
  intro s w arb rest i hsched hdec
  obtain ⟨e, hw, rfl⟩ := decodeEv_eq_ok hdec
  simp only [step, hsched, takeNext_eventAlone _ hw]
  rfl

/-! ### Events that are not enabled -/

theorem execCycle_of_disabled {s : State} (h : s.irqEn = false) : execCycle s = .next s := by
  rw [execCycle, h]
  rfl

theorem execDlyexp_of_disabled {s : State} (h : s.delayPending = false) : execDlyexp s = .next s := by
  rw [execDlyexp, h]
  rfl

theorem execItfire_of_disabled {s : State} (h : s.itimerArmed = false) : execItfire s = .next s := by
  rw [execItfire, h]
  rfl

theorem execRstdone_of_disabled {s : State} (h : s.rstWait = false ∨ s.eng.run = .running) :
    execRstdone s = .next s := by
  obtain hfree | hrun := h
  · rw [execRstdone, hfree]
    rfl
  · have hrunning : s.isRunning = true := decide_eq_true hrun
    rw [execRstdone, hrunning, Bool.not_true, Bool.and_false]
    rfl

/-- Settles O36: each of the four events, by the test it begins with. -/
theorem disabledEventsAreIgnored : Obligations.DisabledEventsAreIgnored := fun _ =>
  ⟨execCycle_of_disabled, execDlyexp_of_disabled, execItfire_of_disabled, execRstdone_of_disabled⟩

end Sys2Proof.Machine

/-! The symmetries, the bound and the monotonicity of the sine (R138), by way of the curve that its table draws. -/

namespace Sys2Proof.Machine

/-! ### The interpolation between two entries -/

@[simp] theorem interpolate_zero (lo hi : Int) (bits : Nat) : interpolate lo hi 0 bits = lo := by
  simp [interpolate]

@[simp] theorem interpolate_whole (lo hi : Int) (bits : Nat) : interpolate lo hi (2 ^ (30 - bits)) bits = hi := by
  have hwidth : (2 : Int) ^ (30 - bits) ≠ 0 := by positivity
  rw [interpolate, Nat.cast_pow, Nat.cast_ofNat, Int.mul_ediv_cancel _ hwidth]
  omega

/-- The two directions floor the same number: a whole rise is added to the exact product before the division (R136). -/
theorem interpolate_reverse (lo hi : Int) {frac bits : Nat} (h : frac ≤ 2 ^ (30 - bits)) :
    interpolate lo hi (2 ^ (30 - bits) - frac) bits = interpolate hi lo frac bits := by
  have hwidth : (2 : Int) ^ (30 - bits) ≠ 0 := by positivity
  have hprod : (hi - lo) * ((2 ^ (30 - bits) - frac : ℕ) : ℤ) = (lo - hi) * frac + (hi - lo) * 2 ^ (30 - bits) := by
    push_cast [h]
    ring
  rw [interpolate, interpolate, hprod, Int.add_mul_ediv_right _ _ hwidth]
  omega

theorem interpolate_mono {lo hi : Int} (h : lo ≤ hi) (bits : Nat) {f g : Nat} (hfg : f ≤ g) :
    interpolate lo hi f bits ≤ interpolate lo hi g bits := by
  have hprod : (hi - lo) * (f : ℤ) ≤ (hi - lo) * (g : ℤ) :=
    mul_le_mul_of_nonneg_left (Int.ofNat_le.mpr hfg) (Int.sub_nonneg_of_le h)
  exact Int.add_le_add_left (Int.ediv_le_ediv (by positivity) hprod) lo

/-! ### The curve of the table -/

/-- The curve that the table draws over a quarter turn: entry `i` stands at `i * 2 ^ (30 - bits)` (R130, R135). -/
def quarterWave (rom : List Nat) (bits y : Nat) : Int :=
  interpolate (romEntry rom (y / 2 ^ (30 - bits))) (romEntry rom (y / 2 ^ (30 - bits) + 1)) (y % 2 ^ (30 - bits)) bits

/-- On each interval, both ends included, the curve interpolates between the interval's two entries. -/
theorem quarterWave_segment (rom : List Nat) {bits t : Nat} (i : Nat) (h : t ≤ 2 ^ (30 - bits)) :
    quarterWave rom bits (2 ^ (30 - bits) * i + t) = interpolate (romEntry rom i) (romEntry rom (i + 1)) t bits := by
  have hwidth : 0 < 2 ^ (30 - bits) := Nat.two_pow_pos _
  rcases h.lt_or_eq with hlt | rfl
  · rw [quarterWave, Nat.mul_add_div hwidth, Nat.div_eq_of_lt hlt, Nat.mul_add_mod, Nat.mod_eq_of_lt hlt, Nat.add_zero]
  · rw [← Nat.mul_succ, quarterWave, Nat.mul_div_cancel_left _ hwidth, Nat.mul_mod_right, interpolate_zero,
      interpolate_whole]

theorem quarterWave_zero (rom : List Nat) (bits : Nat) : quarterWave rom bits 0 = romEntry rom 0 := by
  simp [quarterWave]

theorem two_pow_interval_mul {bits : Nat} (h : bits ≤ 30) : 2 ^ (30 - bits) * 2 ^ bits = 2 ^ 30 := by
  rw [← pow_add, Nat.sub_add_cancel h]

/-- A whole quarter turn ends at the last entry. -/
theorem quarterWave_quarter (rom : List Nat) {bits : Nat} (h : bits ≤ 30) :
    quarterWave rom bits (2 ^ 30) = romEntry rom (2 ^ bits) := by
  have hlast := quarterWave_segment rom (bits := bits) (2 ^ bits) (Nat.zero_le _)
  rwa [Nat.add_zero, two_pow_interval_mul h, interpolate_zero] at hlast

/-! ### The lookup reads the curve -/

/-- Index and fraction are an angle's place within its quadrant (R134). -/
theorem tableIndexOf_fractionOf (bits : Nat) (a : BitVec 32) :
    2 ^ (30 - bits) * tableIndexOf bits a + fractionOf bits a = a.toNat % 2 ^ 30 := by
  have hdvd : 2 ^ (30 - bits) ∣ 2 ^ 30 := pow_dvd_pow 2 (Nat.sub_le 30 bits)
  rw [tableIndexOf, fractionOf, ← Nat.mod_mod_of_dvd a.toNat hdvd, Nat.div_add_mod]

/-- Even quadrants read the curve at the place within the quadrant, odd ones at the place from its end (R135, R136). -/
theorem sineMagnitude_eq_quarterWave (rom : List Nat) (a : BitVec 32) {bits : Nat} (h : bits ≤ 30) :
    sineMagnitude rom bits a =
      if quadrantOf a % 2 = 0 then quarterWave rom bits (a.toNat % 2 ^ 30)
      else quarterWave rom bits (2 ^ 30 - a.toNat % 2 ^ 30) := by
  have hplace := tableIndexOf_fractionOf bits a
  have hfrac := (fractionOf_lt bits a).le
  rw [sineMagnitude]
  split_ifs
  case pos => rw [← hplace, quarterWave_segment rom _ hfrac]
  case neg =>
    obtain ⟨j, hj⟩ := Nat.exists_eq_add_of_lt (tableIndexOf_lt bits a h)
    have hfromEnd : 2 ^ 30 - a.toNat % 2 ^ 30 = 2 ^ (30 - bits) * j + (2 ^ (30 - bits) - fractionOf bits a) := by
      have hquarter := two_pow_interval_mul h
      rw [hj, Nat.mul_add, Nat.mul_add, Nat.mul_one] at hquarter
      omega
    have hlo : 2 ^ bits - tableIndexOf bits a = j + 1 := by omega
    rw [hfromEnd, quarterWave_segment rom j (Nat.sub_le _ _), interpolate_reverse _ _ hfrac]
    simp only [hlo, Nat.add_sub_cancel]

/-- On the first quarter turn, its end included, the sine is the curve. -/
theorem sine_of_le_quarter {p : Params} (h : p.tableBits ≤ 30) {a : BitVec 32} (ha : a.toNat ≤ 2 ^ 30) :
    sine p a = quarterWave p.sineRom p.tableBits a.toNat := by
  rw [sine, sineWith, sineMagnitude_eq_quarterWave _ _ h]
  rcases ha.lt_or_eq with hlt | heq
  · have hq : quadrantOf a = 0 := Nat.div_eq_of_lt hlt
    rw [hq, Nat.mod_eq_of_lt hlt]
    rfl
  · simp [quadrantOf, heq]

/-- On the second quarter turn the sine is the curve read backwards. -/
theorem sine_of_second_quarter {p : Params} (h : p.tableBits ≤ 30) {a : BitVec 32} {x : Nat} (hx : x < 2 ^ 30)
    (ha : a.toNat = 2 ^ 30 + x) : sine p a = quarterWave p.sineRom p.tableBits (2 ^ 30 - x) := by
  have hq : quadrantOf a = 1 := by
    rw [quadrantOf]
    omega
  have hplace : a.toNat % 2 ^ 30 = x := by omega
  rw [sine, sineWith, sineMagnitude_eq_quarterWave _ _ h, hq, hplace]
  rfl

/-! ### The symmetries -/

theorem toNat_half_turn (a : BitVec 32) : (a + 0x80000000).toNat = (a.toNat + 2 ^ 31) % 2 ^ 32 :=
  BitVec.toNat_add a _

theorem quadrantOf_half_turn (a : BitVec 32) : quadrantOf (a + 0x80000000) = (quadrantOf a + 2) % 4 := by
  rw [quadrantOf, quadrantOf, toNat_half_turn]
  omega

/-- Half a turn keeps the quadrant's parity, the index and the fraction, whatever the widths. -/
theorem sineMagnitude_half_turn (rom : List Nat) (bits : Nat) (a : BitVec 32) :
    sineMagnitude rom bits (a + 0x80000000) = sineMagnitude rom bits a := by
  have hparity : quadrantOf (a + 0x80000000) % 2 = quadrantOf a % 2 := by
    rw [quadrantOf_half_turn]
    omega
  have hplace : (a + 0x80000000).toNat % 2 ^ 30 = a.toNat % 2 ^ 30 := by
    rw [toNat_half_turn]
    omega
  have hindex : tableIndexOf bits (a + 0x80000000) = tableIndexOf bits a := by rw [tableIndexOf, tableIndexOf, hplace]
  have hdvd : 2 ^ (30 - bits) ∣ 2 ^ 30 := pow_dvd_pow 2 (Nat.sub_le 30 bits)
  have hfrac : fractionOf bits (a + 0x80000000) = fractionOf bits a := by
    rw [fractionOf, fractionOf, ← Nat.mod_mod_of_dvd _ hdvd, hplace, Nat.mod_mod_of_dvd _ hdvd]
  rw [sineMagnitude, sineMagnitude, hparity, hindex, hfrac]

/-- Half a turn negates the sine (R138 (a)). -/
theorem sine_half_turn (p : Params) (a : BitVec 32) : sine p (a + 0x80000000) = -sine p a := by
  have hupper : 2 ≤ quadrantOf (a + 0x80000000) ↔ ¬ 2 ≤ quadrantOf a := by
    have := quadrantOf_lt a
    rw [quadrantOf_half_turn]
    omega
  rw [sine, sine, sineWith, sineWith, sineMagnitude_half_turn]
  simp only [hupper, ite_not]
  split_ifs
  · rw [Int.neg_neg]
  · rfl

section
variable {p : Params} (h : p.tableWf = true)
include h

theorem tableBits_le_of_tableWf : p.tableBits ≤ 30 := by
  obtain ⟨-, hbits, -⟩ := (tableWf_iff p).mp h
  omega

theorem sine_zero : sine p 0 = 0 := by
  obtain ⟨-, -, -, hfirst, -⟩ := (tableWf_iff p).mp h
  calc sine p 0 = quarterWave p.sineRom p.tableBits 0 := sine_of_le_quarter (tableBits_le_of_tableWf h) (by decide)
    _ = 0 := by rw [quarterWave_zero, romEntry, hfirst, Nat.cast_zero]

theorem sine_quarter : sine p 0x40000000 = 2 ^ p.ampBits := by
  obtain ⟨-, -, -, -, hlast, -⟩ := (tableWf_iff p).mp h
  have hbits := tableBits_le_of_tableWf h
  calc sine p 0x40000000 = quarterWave p.sineRom p.tableBits (2 ^ 30) := sine_of_le_quarter hbits (by decide)
    _ = 2 ^ p.ampBits := by
      rw [quarterWave_quarter _ hbits, romEntry, ← Params.tableSize, hlast, Params.one, Nat.cast_pow, Nat.cast_ofNat]

theorem sine_half : sine p 0x80000000 = 0 := by
  calc sine p 0x80000000 = -sine p 0 := sine_half_turn p 0
    _ = 0 := by rw [sine_zero h, Int.neg_zero]

theorem sine_three_quarters : sine p 0xC0000000 = -2 ^ p.ampBits := by
  calc sine p 0xC0000000 = -sine p 0x40000000 := sine_half_turn p 0x40000000
    _ = -2 ^ p.ampBits := by rw [sine_quarter h]

/-- The second quarter turn mirrors the first; at the far end both are landmarks (R138 (b)). -/
theorem sine_mirror {x : Nat} (hx : x ≤ 2 ^ 30) :
    sine p (BitVec.ofNat 32 (2 ^ 30 + x)) = sine p (BitVec.ofNat 32 (2 ^ 30 - x)) := by
  have hbits := tableBits_le_of_tableWf h
  rcases hx.lt_or_eq with hlt | rfl
  · have hbefore : (BitVec.ofNat 32 (2 ^ 30 - x)).toNat = 2 ^ 30 - x := by
      rw [BitVec.toNat_ofNat]
      omega
    have hafter : (BitVec.ofNat 32 (2 ^ 30 + x)).toNat = 2 ^ 30 + x := by
      rw [BitVec.toNat_ofNat]
      omega
    rw [sine_of_second_quarter hbits hlt hafter, sine_of_le_quarter hbits (by omega), hbefore]
  · exact (sine_half h).trans (sine_zero h).symm

/-! ### The bound and the rise -/

/-- The entries never fall (R8). -/
theorem romEntry_le_succ {i : Nat} (hi : i < 2 ^ p.tableBits) : romEntry p.sineRom i ≤ romEntry p.sineRom (i + 1) := by
  obtain ⟨-, -, hsize, -, -, hrises⟩ := (tableWf_iff p).mp h
  have hend : i + 1 < p.sineRom.length := by
    rw [hsize, Params.tableSize]
    omega
  rw [romEntry, romEntry, Int.ofNat_le, List.getD_eq_getElem _ _ (Nat.lt_of_succ_lt hend), List.getD_eq_getElem _ _ hend]
  exact hrises.sortedLE.getElem_le_getElem_of_le (Nat.le_succ i)

/-- Two neighbouring places share an interval, whose upper entry is not below its lower one. -/
theorem quarterWave_le_succ {y : Nat} (hy : y < 2 ^ 30) :
    quarterWave p.sineRom p.tableBits y ≤ quarterWave p.sineRom p.tableBits (y + 1) := by
  have hi : y / 2 ^ (30 - p.tableBits) < 2 ^ p.tableBits :=
    Nat.div_lt_of_lt_mul ((two_pow_interval_mul (tableBits_le_of_tableWf h)).symm ▸ hy)
  have ht : y % 2 ^ (30 - p.tableBits) < 2 ^ (30 - p.tableBits) := Nat.mod_lt _ (Nat.two_pow_pos _)
  have hrises := interpolate_mono (romEntry_le_succ h hi) p.tableBits (Nat.le_succ (y % 2 ^ (30 - p.tableBits)))
  rwa [← quarterWave_segment _ _ ht.le, ← quarterWave_segment _ _ ht, Nat.add_succ, Nat.div_add_mod] at hrises

theorem quarterWave_monotoneOn : MonotoneOn (quarterWave p.sineRom p.tableBits) (Set.Iic (2 ^ 30)) :=
  monotoneOn_of_le_add_one Set.ordConnected_Iic fun _ _ _ hy => quarterWave_le_succ h hy

/-- On the first quarter turn the sine never falls (R138 (e)). -/
theorem sine_mono {a b : BitVec 32} (hab : a.toNat ≤ b.toNat) (hb : b.toNat ≤ 2 ^ 30) : sine p a ≤ sine p b := by
  have hbits := tableBits_le_of_tableWf h
  rw [sine_of_le_quarter hbits (hab.trans hb), sine_of_le_quarter hbits hb]
  exact quarterWave_monotoneOn h (hab.trans hb) hb hab

/-- The magnitude's bound with its two signs (R138 (d)). -/
theorem sine_bounds (a : BitVec 32) : -2 ^ p.ampBits ≤ sine p a ∧ sine p a ≤ 2 ^ p.ampBits := by
  have hmag := natAbs_sine_le h a
  have hone : (p.one : Int) = 2 ^ p.ampBits := Nat.cast_pow 2 p.ampBits
  rw [← hone]
  omega

end

/-- Settles O47: half a turn negates for every record; for a legal table the mirror and the four landmarks. -/
theorem sineSymmetriesHoldExactly : Obligations.SineSymmetriesHoldExactly := fun p =>
  ⟨sine_half_turn p, fun h =>
    ⟨fun _ => sine_mirror h, sine_zero h, sine_quarter h, sine_half h, sine_three_quarters h⟩⟩

/-- Settles O48: the bound of the magnitude, and the rise of the curve that the first quarter turn reads. -/
theorem sineIsBoundedAndRises : Obligations.SineIsBoundedAndRises := fun _ h =>
  ⟨sine_bounds h, fun _ _ => sine_mono h⟩

end Sys2Proof.Machine

/-! The hardware parameter compiler (R150 to R165): the accuracy of its numbers, its results against the rules' formulas,
the `POLL` that runs it, and the division by `FREQ` = 0 (U2). -/

namespace Sys2Proof.Machine

/-! ### The accuracy of the compiled numbers -/

/-- Rounding half up moves a quotient by at most one half (R12). -/
theorem abs_roundDiv_sub_le (a : Nat) {b : Nat} (hb : 0 < b) : |(roundDiv a b : ℚ) - (a : ℚ) / b| ≤ 1 / 2 := by
  have hpos : (0 : ℚ) ≤ (a : ℚ) / b + 1 / 2 := by positivity
  have hle := Nat.floor_le hpos
  have hlt := Nat.lt_floor_add_one ((a : ℚ) / b + 1 / 2)
  rw [roundDiv_eq a b hb, abs_le]
  constructor <;> linarith

/-- The error of the period is that of the counter period, at most one half, in units of two ticks of the divided clock
(R165 (a)). -/
theorem abs_period_sub_le {clk f : Nat} (hclk : 0 < clk) (hf : 0 < f) :
    |(2 * dividerOf clk f * maxCounterOf clk f : ℚ) / clk - 1000 / f| ≤ (dividerOf clk f : ℚ) / clk := by
  have hd : 0 < dividerOf clk f := (dividerOf_bounds clk f).1
  have hround := abs_roundDiv_sub_le (clk * 1000) (b := f * 2 * dividerOf clk f) (by positivity)
  rw [← maxCounterOf] at hround
  push_cast at hround
  generalize dividerOf clk f = d at *
  generalize maxCounterOf clk f = mc at *
  have hclkq : (0 : ℚ) < clk := by exact_mod_cast hclk
  have hfq : (0 : ℚ) < f := by exact_mod_cast hf
  have hdq : (0 : ℚ) < d := by exact_mod_cast hd
  calc |(2 * d * mc : ℚ) / clk - 1000 / f|
      = |2 * d / clk * (mc - clk * 1000 / (f * 2 * d) : ℚ)| := by
        congr 1
        field_simp
    _ = 2 * d / clk * |(mc : ℚ) - clk * 1000 / (f * 2 * d)| := by
        rw [abs_mul, abs_of_pos (by positivity)]
    _ ≤ 2 * d / clk * (1 / 2) := mul_le_mul_of_nonneg_left hround (by positivity)
    _ = d / clk := by ring

/-- The total deadtime is the exact product, rounded (R159). -/
theorem abs_dtTotalOf_sub_le (dt f mc : Nat) :
    |(dtTotalOf dt f mc : ℚ) - (dt * f * mc * 2 : ℚ) / 10 ^ 12| ≤ 1 / 2 := by
  have hround := abs_roundDiv_sub_le (dt * f * mc * 2) (b := 10 ^ 12) (by norm_num)
  rw [← dtTotalOf] at hround
  exact_mod_cast hround

/-- Settles O50: the ranges by R152 and the clamp, the two errors by the rounding of a quotient. -/
theorem compiledPeriodAndDeadtimeAreAccurate : Obligations.CompiledPeriodAndDeadtimeAreAccurate := by
  intro clk f dt hclk hlegal
  obtain ⟨hf, -, hmc⟩ := (legalF_iff clk f).mp hlegal
  rw [← maxCounterOf_eq_rule clk f hf] at hmc
  obtain ⟨hlow, hhigh⟩ := dividerOf_bounds clk f
  exact ⟨hlow, hhigh, hmc, maxCounterOf_le hlegal, abs_period_sub_le hclk hf, by omega, abs_dtTotalOf_sub_le dt f _⟩

/-! ### The results of `RECONFIG` are the rules' -/

/-- Setting bits one after the other: a bit of the mask was set at the start, or an entry of the list sets it. -/
theorem testBit_foldl_two_pow {α : Type} (on : α → Bool) (bit : α → Nat) (l : List α) (mask b : Nat) :
    (l.foldl (fun m x => if on x then m ||| 2 ^ bit x else m) mask).testBit b = true ↔
      mask.testBit b = true ∨ ∃ x ∈ l, on x = true ∧ bit x = b := by
  induction l generalizing mask with
  | nil => simp
  | cons x rest ih =>
    rw [List.foldl_cons, ih]
    cases hx : on x
    · simp [hx]
    · simp [hx, Nat.testBit_two_pow, or_assoc]

/-- The enable mask holds the channels of the active slots (R155). -/
theorem State.newEnableMask_testBit (s : State) (b : Nat) :
    s.newEnableMask.testBit b = true ↔ ∃ sl, slotActive s.phases sl = true ∧ s.newChan sl = b := by
  rw [State.newEnableMask, testBit_foldl_two_pow]
  simp [Slot.mem_all]

theorem State.newPolarity_eq (s : State) (sl : Slot) :
    s.newPolarity sl = if sl.side = .low then (s.stat.ph.get sl).inv else !(s.stat.ph.get sl).inv := by
  rw [State.newPolarity]
  cases sl.side <;> rfl

section
variable {s : State} (hfreq : s.stat.freq ≠ 0)
include hfreq

theorem freq_toNat_pos : 0 < s.stat.freq.toNat :=
  Nat.pos_of_ne_zero fun h => hfreq (BitVec.eq_of_toNat_eq h)

theorem newDivider_eq_rule : s.newDivider = ruleDivider s.params.clkHz s.stat.freq.toNat :=
  dividerOf_eq_rule _ _ (freq_toNat_pos hfreq)

theorem newMaxCounter_eq_rule : s.newMaxCounter = ruleMaxCounter s.params.clkHz s.stat.freq.toNat :=
  maxCounterOf_eq_rule _ _ (freq_toNat_pos hfreq)

theorem newDtTotal_eq_rule :
    s.newDtTotal =
      ruleDtTotal s.stat.deadtime.toNat s.stat.freq.toNat (ruleMaxCounter s.params.clkHz s.stat.freq.toNat) := by
  rw [State.newDtTotal, dtTotalOf_eq_rule, newMaxCounter_eq_rule hfreq]

/-- What part 1 of `POLL` leaves is the compiled StaticConfig, field by field (R164). -/
theorem compiled_of_reconfigured : Compiled s { s.reconfigured with hwDirty := false } where
  frame         := rfl
  divider       := congrArg (BitVec.ofNat 8) (newDivider_eq_rule hfreq)
  maxCounter    := congrArg (BitVec.ofNat 17) (newMaxCounter_eq_rule hfreq)
  ticksPerCycle := by
    rw [← newDivider_eq_rule hfreq, ← newMaxCounter_eq_rule hfreq]
    rfl
  deadtime      := by
    rw [← newDtTotal_eq_rule hfreq]
    exact ⟨rfl, rfl, rfl⟩
  clip          := by
    rw [← clipLoOf_eq_rule]
    exact ⟨rfl, rfl⟩
  enableMask    := fun b => by
    simp only [← slotActive_iff]
    exact s.newEnableMask_testBit b
  irqChan       := fun hn => ⟨if_pos hn, if_pos hn⟩
  irqChanOff    := fun hn => by
    have hoff : ¬ 1 ≤ s.stat.opMode.code := by omega
    exact ⟨if_neg hoff, if_neg hoff⟩
  activeSlots   := fun sl hsl => by
    have hon := (slotActive_iff _ sl).mpr hsl
    constructor
    · rw [State.reconfigured_drv, State.compiled, PerSlot.get_tabulate, if_pos hon]
      rfl
    · rw [State.reconfigured_ch_get, if_pos hon, State.programmed, State.newPolarity_eq, newDivider_eq_rule hfreq,
        newMaxCounter_eq_rule hfreq]
      rfl
  otherSlots    := fun sl hsl => by
    have hoff : ¬ slotActive s.phases sl = true := Bool.eq_false_iff.mp ((slotActive_false_iff _ sl).mpr hsl)
    constructor
    · rw [State.reconfigured_drv, State.compiled, PerSlot.get_tabulate, if_neg hoff]
    · rw [State.reconfigured_ch_get, if_neg hoff]

end

/-! ### The two parts of `POLL` by their conditions -/

theorem State.isRunning_of_idle {s : State} (hidle : s.eng.run = .idle) : s.isRunning = false := by
  rw [State.isRunning, hidle]
  rfl

/-- The trigger condition is the rule's (R212). -/
theorem State.triggered_iff (s : State) : s.triggered = true ↔ ruleTriggered s := by
  rw [State.triggered, Bool.or_eq_true, decide_eq_true_iff, ruleTriggered]

section
variable {s : State}

theorem reconfig_of_freq (hfreq : s.stat.freq ≠ 0) : reconfig s = .ok s.reconfigured := if_neg hfreq

theorem reconfig_of_freq_zero (hfreq : s.stat.freq = 0) : reconfig s = .error .freqZero := if_pos hfreq

theorem pollReconfig_of_clean (hclean : s.hwDirty = false) : pollReconfig s = .ok s := by
  rw [pollReconfig, if_neg (by simp [hclean])]

theorem pollReconfig_of_dirty (hidle : s.eng.run = .idle) (hdirty : s.hwDirty = true) (hfreq : s.stat.freq ≠ 0) :
    pollReconfig s = .ok { s.reconfigured with hwDirty := false } := by
  rw [pollReconfig, if_pos ⟨State.isRunning_of_idle hidle, hdirty⟩, reconfig_of_freq hfreq]

theorem pollReconfig_of_freq_zero (hidle : s.eng.run = .idle) (hdirty : s.hwDirty = true) (hfreq : s.stat.freq = 0) :
    pollReconfig s = .error .freqZero := by
  rw [pollReconfig, if_pos ⟨State.isRunning_of_idle hidle, hdirty⟩, reconfig_of_freq_zero hfreq]

theorem pollTrigger_of_not_triggered (h : s.running = true ∨ ¬ ruleTriggered s) : pollTrigger s = .ok s := by
  refine if_neg fun ⟨_, hstopped, htrig⟩ => ?_
  obtain hrunning | hnot := h
  · rw [hrunning] at hstopped
    cases hstopped
  · exact hnot (s.triggered_iff.mp htrig)

theorem pollTrigger_of_off (hidle : s.eng.run = .idle) (hstopped : s.running = false) (htrig : ruleTriggered s)
    (hoff : s.stat.opMode = .off) : pollTrigger s = .ok { s with trigPending := false } := by
  rw [pollTrigger, if_pos ⟨State.isRunning_of_idle hidle, hstopped, s.triggered_iff.mpr htrig⟩, if_pos hoff]

theorem pollTrigger_of_start (hidle : s.eng.run = .idle) (hstopped : s.running = false) (htrig : ruleTriggered s)
    (hmode : s.stat.opMode ≠ .off) : pollTrigger s = start s := by
  rw [pollTrigger, if_pos ⟨State.isRunning_of_idle hidle, hstopped, s.triggered_iff.mpr htrig⟩, if_neg hmode]

/-- `POLL` is its second part, run in the state that the first leaves (R210). -/
theorem exec_poll_of_pollReconfig {u : State} (h : pollReconfig s = .ok u) :
    exec .poll s = outcomeOf (pollTrigger u) := by
  rw [exec, execPoll, h]

theorem exec_poll_of_fault {f : Fault} (h : pollReconfig s = .error f) : exec .poll s = .fault f := by
  rw [exec, execPoll, h]

end

/-! ### The `POLL` that compiles -/

/-- Part 1 of `POLL` with `hw_dirty` set compiles (R211). -/
theorem pollReconfig_compiles {s : State} (hidle : s.eng.run = .idle) (hdirty : s.hwDirty = true)
    (hfreq : s.stat.freq ≠ 0) : ∃ u, Compiled s u ∧ pollReconfig s = .ok u :=
  ⟨_, compiled_of_reconfigured hfreq, pollReconfig_of_dirty hidle hdirty hfreq⟩

section
variable {s u : State} (h : Compiled s u)
include h

/-! A compilation leaves alone all that part 2 of `POLL` goes by. -/

theorem Compiled.run_eq : u.eng.run = s.eng.run := congrArg (·.eng.run) h.frame

theorem Compiled.running_eq : u.running = s.running := congrArg (·.running) h.frame

theorem Compiled.stat_eq : u.stat = s.stat := congrArg (·.stat) h.frame

theorem Compiled.triggered_iff : ruleTriggered u ↔ ruleTriggered s := by
  have hpending : u.trigPending = s.trigPending := congrArg (·.trigPending) h.frame
  have hsource : u.trigger = s.trigger := congrArg (·.trigger) h.frame
  rw [ruleTriggered, hpending, hsource, ruleTriggered]

end

/-- Settles O38: part 1 compiles, and part 2 finds the running flag, the trigger and the mode as they were before. -/
theorem pollCompilesTheStaticConfig : Obligations.PollCompilesTheStaticConfig := by
  intro s hidle hdirty hfreq
  obtain ⟨u, hu, hpart1⟩ := pollReconfig_compiles hidle hdirty hfreq
  have hpoll := exec_poll_of_pollReconfig hpart1
  rw [← hu.run_eq] at hidle
  rw [← hu.running_eq, ← hu.triggered_iff, ← hu.stat_eq]
  refine ⟨fun hnot => ⟨u, hu, ?_⟩, fun hstopped htrig hoff => ⟨u, hu, ?_⟩⟩
  · rw [hpoll, pollTrigger_of_not_triggered hnot]
    rfl
  · rw [hpoll, pollTrigger_of_off hidle hstopped htrig hoff]
    rfl

/-! ### The division by a zero frequency -/

section
variable {s : State}

/-- A reload in MOD_SPEED divides by `FREQ` (R244, U2). -/
theorem refreshDuties_of_freq_zero (hmode : s.stat.ctrlMode = .modSpeed) (hfreq : s.stat.freq = 0) :
    refreshDuties true s = .error .freqZero := by
  rw [refreshDuties, hmode, hfreq]
  rfl

/-- A duty pass that reloads, by force or by the flag, stops where the reload stops (R240). -/
theorem dutyPass_of_freq_zero {force : Bool} (hreload : (force || s.reload) = true)
    (hmode : s.stat.ctrlMode = .modSpeed) (hfreq : s.stat.freq = 0) : dutyPass force s = .error .freqZero := by
  rw [dutyPass, hreload, refreshDuties_of_freq_zero hmode hfreq]

/-- The priming pass of a start reloads whatever the flag holds (R217). -/
theorem start_of_freq_zero (hmode : s.stat.ctrlMode = .modSpeed) (hfreq : s.stat.freq = 0) :
    start s = .error .freqZero := by
  rw [start, dutyPass_of_freq_zero (s := s.startReset) (Bool.true_or _) hmode hfreq]

theorem cycleHandler_of_freq_zero (hrunning : s.running = true) (hgoes : ¬ ruleBurstEnds s) (hreload : s.reload = true)
    (hmode : s.stat.ctrlMode = .modSpeed) (hfreq : s.stat.freq = 0) : cycleHandler s = .error .freqZero := by
  have hstop : s.burstStop = false := Bool.eq_false_iff.mpr fun h => hgoes (s.burstStop_iff.mp h)
  have hcheck : ¬ (s.burstStop || !s.running) = true := by simp [hstop, hrunning]
  rw [cycleHandler, if_neg hcheck, dutyPass_of_freq_zero (force := false) (by rwa [Bool.false_or]) hmode hfreq]

end

/-- Settles O40: the reconfiguration, the priming pass of a start and the reload of a cycle each divide by `FREQ`. -/
theorem zeroFrequencyStops : Obligations.ZeroFrequencyStops := by
  intro s hfreq
  refine ⟨fun hidle hdirty => ?reconfiguration, fun hidle hstopped hclean htrig hmode hspeed => ?start,
    fun hirq hrunning hgoes hreload hspeed => ?cycle⟩
  case reconfiguration => exact exec_poll_of_fault (pollReconfig_of_freq_zero hidle hdirty hfreq)
  case start =>
    rw [exec_poll_of_pollReconfig (pollReconfig_of_clean hclean), pollTrigger_of_start hidle hstopped htrig hmode,
      start_of_freq_zero hspeed hfreq]
    rfl
  case cycle =>
    rw [exec, execCycle, if_pos hirq, cycleHandler_of_freq_zero hrunning hgoes hreload hspeed hfreq]
    rfl

end Sys2Proof.Machine

/-! The delayed trigger and the internal timer (R182 to R186), and the life of a burst: how many `CYCLE`s compute before
the one that stops (R188 to R191). -/

namespace Sys2Proof.Machine

/-! ### The timer events -/

theorem execDlyexp_of_pending {s : State} (h : s.delayPending = true) :
    execDlyexp s = .next { s with trigPending := true, delayPending := false } := by
  rw [execDlyexp, if_pos h]
  rfl

theorem execItfire_of_armed {s : State} (h : s.itimerArmed = true) : execItfire s = .next s.armDelay := by
  rw [execItfire, if_pos h]

theorem State.armDelay_of_free {s : State} (h : s.delayPending = false) :
    s.armDelay = { s with delayPending := true, delayUs := s.trigger.delay } := by
  rw [State.armDelay, h]
  rfl

/-- Settles O35: `DLYEXP` by its test, `ITFIRE` by its own and then by that of `ARM_DELAY`. -/
theorem timerEventsDispatchAndArm : Obligations.TimerEventsDispatchAndArm := by
  refine fun s => ⟨execDlyexp_of_pending, fun harmed hfree => ?arms, fun harmed hpending => ?drops⟩
  case arms => exact (execItfire_of_armed harmed).trans (by rw [State.armDelay_of_free hfree])
  case drops => exact (execItfire_of_armed harmed).trans (by rw [s.armDelay_of_pending hpending])

/-! ### A `CYCLE` that computes -/

theorem Legal.freq_ne_zero {s : State} (h : Legal s) : s.stat.freq ≠ 0 := by
  obtain ⟨hpos, -, -⟩ := (legalF_iff _ _).mp h.static.freqLegal
  exact fun hzero => absurd (hzero ▸ hpos) (by decide)

/-- Step 3 divides by nothing but `FREQ` (R240, U2). -/
theorem refreshDuties_of_freq {s : State} (rl : Bool) (hfreq : s.stat.freq ≠ 0) :
    ∃ u, refreshDuties rl s = .ok u := by
  unfold refreshDuties
  split
  · exact ⟨_, rfl⟩
  · exact ⟨_, rfl⟩
  · rw [decide_eq_false hfreq, Bool.and_false]
    exact ⟨_, rfl⟩

/-- Of all that a burst goes by, a `CYCLE` that computes writes the counters alone (R230, R250). -/
theorem exec_cycle_computes {s : State} (h : Legal s) (hrunning : s.running = true) (hgoes : ¬ ruleBurstEnds s) :
    ∃ t, exec .cycle s = .next t ∧ t.running = s.running ∧ t.stat = s.stat ∧ t.burst = s.burst ∧
      t.eng.burstTimeout = s.eng.burstTimeout ∧ t.eng.ticksPerCycle = s.eng.ticksPerCycle ∧ counterAdvances s t := by
  have hirq : s.irqEn = true := h.irqEnabled.mpr (h.runningFlag hrunning)
  have hstop : s.burstStop = false := Bool.eq_false_iff.mpr fun hb => hgoes (s.burstStop_iff.mp hb)
  obtain ⟨u, hu⟩ := refreshDuties_of_freq s.reload h.freq_ne_zero
  have hcycle : exec .cycle s = _ := execCycle_computes hirq hrunning hstop hu
  obtain ⟨acc, delta, duties, rfl⟩ := refreshDuties_frame hu
  rw [State.advanceBurst_eq] at hcycle
  exact ⟨_, hcycle, rfl, rfl, rfl, rfl, rfl, rfl, rfl⟩

/-- `t` is what `s` has become after `j` `CYCLE`s that computed, in all that a burst goes by. The counters are kept
modulo their width. -/
structure ComputedFor (s : State) (j : Nat) (t : State) : Prop where
  legal         : Legal t
  running       : t.running = true
  stat          : t.stat = s.stat
  burst         : t.burst = s.burst
  timeout       : t.eng.burstTimeout = s.eng.burstTimeout
  ticksPerCycle : t.eng.ticksPerCycle = s.eng.ticksPerCycle
  cycles : s.burst.kind = .ncycles → t.eng.burstCycles = s.eng.burstCycles + BitVec.ofNat 32 j
  ticks  : s.burst.kind = .duration →
    t.eng.burstTicks = s.eng.burstTicks + BitVec.ofNat 64 (j * s.eng.ticksPerCycle.toNat)

theorem Legal.computedFor_zero {s : State} (h : Legal s) (hrunning : s.running = true) : ComputedFor s 0 s where
  legal         := h
  running       := hrunning
  stat          := rfl
  burst         := rfl
  timeout       := rfl
  ticksPerCycle := rfl
  cycles        := fun _ => (BitVec.add_zero _).symm
  ticks         := fun _ => by rw [Nat.zero_mul]; exact (BitVec.add_zero _).symm

section
variable {s t : State} {j : Nat} (h : ComputedFor s j t)
include h

theorem ComputedFor.run : t.eng.run = .running := h.legal.runningFlag h.running

/-- One `CYCLE` more (R230, R250). -/
theorem ComputedFor.succ (hgoes : ¬ ruleBurstEnds t) : ∃ u, exec .cycle t = .next u ∧ ComputedFor s (j + 1) u := by
  obtain ⟨u, hcycle, hrunning, hstat, hburst, htimeout, hclock, hcycles, hticks⟩ :=
    exec_cycle_computes h.legal h.running hgoes
  refine ⟨u, hcycle, h.legal.exec hcycle, hrunning.trans h.running, hstat.trans h.stat, hburst.trans h.burst,
    htimeout.trans h.timeout, hclock.trans h.ticksPerCycle, fun hkind => ?cycles, fun hkind => ?ticks⟩
  case cycles =>
    rw [hcycles, h.burst, if_pos hkind, h.cycles hkind, BitVec.ofNat_add, BitVec.add_assoc]
    rfl
  case ticks =>
    rw [hticks, h.burst, if_pos hkind, h.ticks hkind, h.ticksPerCycle, Nat.add_mul, Nat.one_mul, BitVec.ofNat_add,
      BitVec.add_assoc, BitVec.ofNat_toNat]

/-- The last `CYCLE` of a burst (R232, R236). -/
theorem ComputedFor.stops (hends : ruleBurstEnds t) : exec .cycle t = .next t.toIdle :=
  execCycle_stops (h.legal.irqEnabled.mpr h.run) (.inl (t.burstStop_iff.mpr hends))

theorem ComputedFor.enabled {sl : Slot} (hactive : slotActive s.phases sl = true) : (t.ch.get sl).enabled = true :=
  (h.legal.enabledSlots sl).mpr ⟨h.run, by rw [State.phases, h.stat]; exact hactive⟩

theorem ComputedFor.burstCycles_toNat (hkind : s.burst.kind = .ncycles) (hzero : s.eng.burstCycles = 0)
    (hj : j < 2 ^ 32) : t.eng.burstCycles.toNat = j := by
  rw [h.cycles hkind, hzero, zero_add, BitVec.toNat_ofNat, Nat.mod_eq_of_lt hj]

theorem ComputedFor.burstTicks_toNat (hkind : s.burst.kind = .duration) (hzero : s.eng.burstTicks = 0)
    (hj : j * s.eng.ticksPerCycle.toNat < 2 ^ 64) : t.eng.burstTicks.toNat = j * s.eng.ticksPerCycle.toNat := by
  rw [h.ticks hkind, hzero, zero_add, BitVec.toNat_ofNat, Nat.mod_eq_of_lt hj]

/-- The policy of an NCYCLES burst (R188). -/
theorem ComputedFor.ruleBurstEnds_ncycles (hkind : s.burst.kind = .ncycles) :
    ruleBurstEnds t ↔ s.burst.count.toNat ≤ t.eng.burstCycles.toNat := by
  simp [ruleBurstEnds, h.burst, hkind]

/-- The policy of a DURATION burst (R188). -/
theorem ComputedFor.ruleBurstEnds_duration (hkind : s.burst.kind = .duration) :
    ruleBurstEnds t ↔ s.eng.burstTimeout.toNat ≤ t.eng.burstTicks.toNat := by
  simp [ruleBurstEnds, h.burst, h.timeout, hkind]

end

theorem Legal.toIdle_disabled {s : State} (h : Legal s) (sl : Slot) : (s.toIdle.ch.get sl).enabled = false :=
  Bool.eq_false_iff.mpr fun he => nomatch ((h.toIdle.enabledSlots sl).mp he).1

/-! ### The `CYCLE`s of a burst -/

/-- `runCycles` takes its events from the front; this is one more at the end. -/
theorem runCycles_succ {j : Nat} {s t u : State} (hrun : runCycles j s = .next t) (hlast : exec .cycle t = .next u) :
    runCycles (j + 1) s = .next u := by
  induction j generalizing s with
  | zero =>
    cases hrun
    rw [runCycles, hlast]
    rfl
  | succ j ih =>
    rw [runCycles] at hrun ⊢
    split at hrun
    next => exact ih hrun
    next => cases hrun
    next => cases hrun

/-- The burst policy of the burst in `s` lets exactly `n` `CYCLE`s compute. -/
def BurstLasts (s : State) (n : Nat) : Prop := ∀ j ≤ n, ∀ t, ComputedFor s j t → (ruleBurstEnds t ↔ n ≤ j)

/-- Up to its length a burst computes (R189, R230). -/
theorem BurstLasts.computes {s : State} {n : Nat} (h : BurstLasts s n) (hlegal : Legal s) (hrunning : s.running = true) :
    ∀ j ≤ n, ∃ t, runCycles j s = .next t ∧ ComputedFor s j t := by
  intro j hj
  induction j with
  | zero => exact ⟨s, rfl, hlegal.computedFor_zero hrunning⟩
  | succ j ih =>
    obtain ⟨t, hrun, ht⟩ := ih (Nat.le_of_succ_le hj)
    have hgoes : ¬ ruleBurstEnds t := fun hends =>
      Nat.not_le_of_lt hj ((h j (Nat.le_of_succ_le hj) t ht).mp hends)
    obtain ⟨u, hcycle, hu⟩ := ht.succ hgoes
    exact ⟨u, runCycles_succ hrun hcycle, hu⟩

/-- The `CYCLE` after its length returns to IDLE (R189, R232). -/
theorem BurstLasts.stops {s : State} {n : Nat} (h : BurstLasts s n) (hlegal : Legal s) (hrunning : s.running = true) :
    ∃ t, ComputedFor s n t ∧ runCycles (n + 1) s = .next t.toIdle := by
  obtain ⟨t, hrun, ht⟩ := h.computes hlegal hrunning n le_rfl
  have hends : ruleBurstEnds t := (h n le_rfl t ht).mpr le_rfl
  exact ⟨t, ht, runCycles_succ hrun (ht.stops hends)⟩

/-! ### The length of a burst -/

/-- The counter of an NCYCLES burst is a register as wide as `BURST_COUNT`, so it reaches it without a wrap (R190). -/
theorem burstLasts_count {s : State} (hkind : s.burst.kind = .ncycles) (hzero : s.eng.burstCycles = 0) :
    BurstLasts s s.burst.count.toNat := by
  intro j hj t ht
  rw [ht.ruleBurstEnds_ncycles hkind, ht.burstCycles_toNat hkind hzero (hj.trans_lt s.burst.count.isLt)]

/-- The last cycle begun before a timeout ends less than one cycle after it. -/
theorem mul_lt_of_le_ceil_div {a c j : Nat} (hc : 0 < c) (hj : j ≤ ⌈(a : ℚ) / (c : ℚ)⌉₊) : j * c < a + c := by
  rw [← ceilDiv_eq a c hc, ceilDiv] at hj
  have hquot : j * c ≤ a + c - 1 := (Nat.le_div_iff_mul_le hc).mp hj
  omega

theorem ceil_div_le_iff_le_mul {a c j : Nat} (hc : 0 < c) : ⌈(a : ℚ) / (c : ℚ)⌉₊ ≤ j ↔ a ≤ j * c := by
  have hpos : (0 : ℚ) < c := Nat.cast_pos.mpr hc
  rw [Nat.ceil_le, div_le_iff₀ hpos]
  exact_mod_cast Iff.rfl

section
variable {s : State} {j : Nat} (hT : s.eng.burstTimeout.toNat < 2 ^ 63) (hc : 0 < s.eng.ticksPerCycle.toNat)
include hT hc

/-- Until its timeout the counter of a DURATION burst does not wrap (R26, R191). -/
theorem burstTicks_fit (hj : j ≤ ⌈(s.eng.burstTimeout.toNat : ℚ) / (s.eng.ticksPerCycle.toNat : ℚ)⌉₊) :
    j * s.eng.ticksPerCycle.toNat < 2 ^ 64 := by
  have hlast := mul_lt_of_le_ceil_div hc hj
  have hwidth := s.eng.ticksPerCycle.isLt
  omega

theorem burstLasts_timeout (hkind : s.burst.kind = .duration) (hzero : s.eng.burstTicks = 0) :
    BurstLasts s ⌈(s.eng.burstTimeout.toNat : ℚ) / (s.eng.ticksPerCycle.toNat : ℚ)⌉₊ := by
  intro j hj t ht
  rw [ht.ruleBurstEnds_duration hkind, ht.burstTicks_toNat hkind hzero (burstTicks_fit hT hc hj),
    ceil_div_le_iff_le_mul hc]

end

/-- Settles O59: the burst lasts `BURST_COUNT` cycles, and its counter says how many have computed. -/
theorem ncyclesBurstEndsAfterItsCount : Obligations.NcyclesBurstEndsAfterItsCount := by
  intro s hlegal _ hrunning hkind hzero
  have hlasts := burstLasts_count hkind hzero
  refine ⟨fun j hj => ?computes, ?stops⟩
  case computes =>
    obtain ⟨t, hrun, ht⟩ := hlasts.computes hlegal hrunning j hj
    exact ⟨t, hrun, ht.run, ht.burstCycles_toNat hkind hzero (hj.trans_lt s.burst.count.isLt),
      fun _ hactive => ht.enabled hactive⟩
  case stops =>
    obtain ⟨t, ht, hrun⟩ := hlasts.stops hlegal hrunning
    have hcount := ht.burstCycles_toNat hkind hzero s.burst.count.isLt
    exact ⟨t.toIdle, hrun, rfl, BitVec.eq_of_toNat_eq hcount, ht.legal.toIdle_disabled⟩

/-- Settles O60: the burst lasts the ceiling of its timeout over the ticks of a cycle, and its counter does not wrap on
the way. -/
theorem durationBurstEndsAtItsTimeout : Obligations.DurationBurstEndsAtItsTimeout := by
  intro s hlegal _ hrunning hkind hzero hT hc n
  have hlasts := burstLasts_timeout hT hc hkind hzero
  refine ⟨fun j hj => ?computes, ?stops⟩
  case computes =>
    obtain ⟨t, hrun, ht⟩ := hlasts.computes hlegal hrunning j hj
    exact ⟨t, hrun, ht.run, ht.burstTicks_toNat hkind hzero (burstTicks_fit hT hc hj)⟩
  case stops =>
    obtain ⟨t, ht, hrun⟩ := hlasts.stops hlegal hrunning
    exact ⟨t.toIdle, hrun, rfl, ht.burstTicks_toNat hkind hzero (burstTicks_fit hT hc le_rfl)⟩

end Sys2Proof.Machine

/-! The supervisory loop (R210 to R218): the `POLL`s that neither compile nor start, the start with its priming pass,
which operations move the state register (R215, R216), and the end by `ABORT` (R219). -/

namespace Sys2Proof.Machine

/-! ### The `POLL`s that do not start -/

theorem State.isRunning_of_running {s : State} (hrun : s.eng.run = .running) : s.isRunning = true :=
  decide_eq_true hrun

theorem pollReconfig_of_running {s : State} (hrun : s.eng.run = .running) : pollReconfig s = .ok s := by
  rw [pollReconfig, if_neg (by simp [State.isRunning_of_running hrun])]

theorem pollTrigger_of_running {s : State} (hrun : s.eng.run = .running) : pollTrigger s = .ok s := by
  rw [pollTrigger, if_neg (by simp [State.isRunning_of_running hrun])]

/-- Without a reconfiguration `POLL` is its second part alone (R210). -/
theorem exec_poll_of_clean {s t : State} (hclean : s.hwDirty = false) (h : pollTrigger s = .ok t) :
    exec .poll s = .next t := by
  rw [exec_poll_of_pollReconfig (pollReconfig_of_clean hclean), h]
  rfl

/-- Settles O37: both parts are for IDLE, the first for a set `hw_dirty`, the second for a trigger and a clear running
flag; in OFF mode it drops the trigger. -/
theorem pollWithoutStart : Obligations.PollWithoutStart := by
  refine fun s => ⟨fun hrun => ?running, fun hclean hnone hsource => ?untriggered, fun _ hclean hrunning => ?flagSet,
    fun hidle hclean hstopped htrig hoff => ?off⟩
  case running =>
    rw [exec_poll_of_pollReconfig (pollReconfig_of_running hrun), pollTrigger_of_running hrun]
    rfl
  case untriggered =>
    have hnot : ¬ ruleTriggered s := by simp [ruleTriggered, hnone, hsource]
    exact exec_poll_of_clean hclean (pollTrigger_of_not_triggered (.inr hnot))
  case flagSet => exact exec_poll_of_clean hclean (pollTrigger_of_not_triggered (.inl hrunning))
  case off => exact exec_poll_of_clean hclean (pollTrigger_of_off hidle hstopped htrig hoff)

/-! ### Step 3 in each control mode -/

section
variable {rl : Bool} {s t : State} (h : refreshDuties rl s = .ok t)
include h

theorem refreshDuties_direct (hmode : s.stat.ctrlMode = .directDuty) : t = refreshDirect rl s := by
  obtain ⟨-, ht⟩ | ⟨hother, -⟩ | ⟨hother, -, -⟩ := refreshDuties_ok h
  · exact ht
  · cases hmode.symm.trans hother
  · cases hmode.symm.trans hother

theorem refreshDuties_angle (hmode : s.stat.ctrlMode = .modAngle) : t = refreshAngle rl s := by
  obtain ⟨hother, -⟩ | ⟨-, ht⟩ | ⟨hother, -, -⟩ := refreshDuties_ok h
  · cases hmode.symm.trans hother
  · exact ht
  · cases hmode.symm.trans hother

theorem refreshDuties_speed (hmode : s.stat.ctrlMode = .modSpeed) : t = refreshSpeed rl s := by
  obtain ⟨hother, -⟩ | ⟨hother, -⟩ | ⟨-, -, ht⟩ := refreshDuties_ok h
  · cases hmode.symm.trans hother
  · cases hmode.symm.trans hother
  · exact ht

/-- In a modulating mode the duty of an active phase is the lookup at the accumulator that step 3 leaves (R243). -/
theorem refreshDuties_modulated (hmode : s.stat.ctrlMode ≠ .directDuty) {k : Phase} (hk : k.idx < s.phases) :
    t.eng.dutyActive.get k = modulatedDuty s t.eng.phaseAcc k := by
  have hon := (phaseActive_iff _ k).mpr hk
  obtain ⟨hdirect, -⟩ | ⟨-, rfl⟩ | ⟨-, -, rfl⟩ := refreshDuties_ok h
  · exact absurd hdirect hmode
  · exact (State.withDuties_dutyActive_get _ _ k).trans (if_pos hon)
  · exact (State.withDuties_dutyActive_get _ _ k).trans (if_pos hon)

/-- Step 3 leaves the duties of inactive phases (R241, R243). -/
theorem refreshDuties_inactive {k : Phase} (hk : s.phases ≤ k.idx) :
    t.eng.dutyActive.get k = s.eng.dutyActive.get k := by
  have hoff : ¬ phaseActive s.phases k = true := Bool.eq_false_iff.mp ((phaseActive_false_iff _ k).mpr hk)
  obtain ⟨-, rfl⟩ | ⟨-, rfl⟩ | ⟨-, -, rfl⟩ := refreshDuties_ok h
  · cases rl with
    | false => rfl
    | true => exact (State.withDuties_dutyActive_get _ _ k).trans (if_neg hoff)
  · exact (State.withDuties_dutyActive_get _ _ k).trans (if_neg hoff)
  · exact (State.withDuties_dutyActive_get _ _ k).trans (if_neg hoff)

end

/-- With a reload DIRECT_DUTY copies the configured duties of the active phases (R241). -/
theorem refreshDirect_dutyActive {s : State} {k : Phase} (hk : k.idx < s.phases) :
    (refreshDirect true s).eng.dutyActive.get k = BitVec.ofNat 34 ((s.runtime.duty.get k).toNat * 2 ^ 17) :=
  (State.withDuties_dutyActive_get _ _ k).trans (if_pos ((phaseActive_iff _ k).mpr hk))

/-! ### The start -/

/-- The state that `START` from `u` leaves, from the state `v` after step 3 of its priming pass (R214, R240). -/
def State.startedFrom (v : State) : State := State.enableOutputs { v.withLevels with reload := false }

/-- `START` is the resets, step 3 with a forced reload, the levels and the enables (R214, R217). -/
theorem start_iff {s t : State} :
    start s = .ok t ↔ ∃ v, refreshDuties true s.startReset = .ok v ∧ t = v.startedFrom := by
  constructor
  · intro h
    obtain ⟨w, hw, rfl⟩ := start_ok h
    obtain ⟨v, hv, rfl⟩ := dutyPass_ok hw
    exact ⟨v, hv, rfl⟩
  · rintro ⟨v, hv, rfl⟩
    rw [start, dutyPass, Bool.true_or, hv]
    rfl

theorem State.startedFrom_ch_active {v : State} {sl : Slot} (hsl : slotActive v.phases sl = true) :
    v.startedFrom.ch.get sl =
      { v.ch.get sl with
        level   := ruleLevel v.drv (v.eng.dutyActive.get sl.phase).toNat sl.side
        enabled := true } := by
  have hlevel : v.withLevels.ch.get sl = _ := (v.withLevels_ch_get sl).trans (if_pos hsl)
  have henable : v.startedFrom.ch.get sl = { v.withLevels.ch.get sl with enabled := true } :=
    (State.enableOutputs_ch_get _ sl).trans (if_pos hsl)
  rw [henable, hlevel, v.slotLevel_eq_rule]

theorem State.startedFrom_ch_inactive {v : State} {sl : Slot} (hsl : ¬ slotActive v.phases sl = true) :
    v.startedFrom.ch.get sl = v.ch.get sl := by
  calc v.startedFrom.ch.get sl = v.withLevels.ch.get sl := (State.enableOutputs_ch_get _ sl).trans (if_neg hsl)
    _ = v.ch.get sl := (v.withLevels_ch_get sl).trans (if_neg hsl)

/-- The burst timeout is the rule's ceiling (R27, R214). -/
theorem timeoutOf_eq_rule (clk us : Nat) : timeoutOf clk us = ⌈((us * clk : ℕ) : ℚ) / 10 ^ 6⌉₊ := by
  rw [timeoutOf, ceilDiv_eq _ _ (by norm_num)]
  norm_num

/-- What `START` leaves is the started state, field by field (R214). -/
theorem started_of_start {u t : State} (h : start u = .ok t) : Started u t := by
  obtain ⟨v, hv, rfl⟩ := start_iff.mp h
  obtain ⟨acc, delta, duties, hframe⟩ := refreshDuties_frame hv
  have hphases : v.phases = u.phases := by rw [hframe]; rfl
  have hdrv : v.drv = u.drv := by rw [hframe]; rfl
  have hch : v.ch = u.ch := by rw [hframe]; rfl
  exact {
    frame       := by rw [hframe]; rfl
    run         := by rw [hframe]; rfl
    counters    := by rw [hframe]; exact ⟨rfl, rfl⟩
    timeout     := by
      rw [← timeoutOf_eq_rule, hframe]
      rfl
    direct      := fun hmode => by
      have hstep := refreshDuties_direct hv hmode
      exact ⟨by rw [hstep]; rfl, by rw [hstep]; rfl, fun k hk => by rw [hstep]; exact refreshDirect_dutyActive hk⟩
    angle       := fun hmode => by
      rw [refreshDuties_angle hv hmode]
      exact ⟨rfl, rfl⟩
    speed       := fun hmode => by
      rw [refreshDuties_speed hv hmode]
      exact ⟨speedToDelta_eq_rule _ _, zero_add _⟩
    modulated   := fun hmode k hk => by
      have hduty : v.startedFrom.eng.dutyActive.get k = _ := refreshDuties_modulated hv hmode hk
      rw [hduty]
      exact modulatedDuty_rule u.startReset _ k hk
    otherDuties := fun k hk => refreshDuties_inactive hv hk
    activeSlots := fun sl hsl => by
      have hon : slotActive v.phases sl = true := by rw [hphases, slotActive_iff]; exact hsl
      rw [State.startedFrom_ch_active hon, hdrv, hch]
      rfl
    otherSlots  := fun sl hsl => by
      have hoff : slotActive v.phases sl = false := by rw [hphases, slotActive_false_iff]; exact hsl
      rw [State.startedFrom_ch_inactive (Bool.eq_false_iff.mp hoff), hch] }

/-- Step 3 divides by `FREQ` in MOD_SPEED alone (R240, R244, U2). -/
theorem refreshDuties_of_divisor {s : State} (rl : Bool) (h : s.stat.ctrlMode = .modSpeed → s.stat.freq ≠ 0) :
    ∃ t, refreshDuties rl s = .ok t := by
  by_cases hfreq : s.stat.freq = 0
  · unfold refreshDuties
    split
    · exact ⟨_, rfl⟩
    · exact ⟨_, rfl⟩
    next hspeed => exact absurd hfreq (h hspeed)
  · exact refreshDuties_of_freq rl hfreq

/-- The second part of `POLL` starts the waveform (R212, R214). -/
theorem pollTrigger_starts {u : State} (hidle : u.eng.run = .idle) (hstopped : u.running = false)
    (htrig : ruleTriggered u) (hmode : u.stat.opMode ≠ .off)
    (hdivisor : u.stat.ctrlMode = .modSpeed → u.stat.freq ≠ 0) : ∃ t, Started u t ∧ pollTrigger u = .ok t := by
  obtain ⟨v, hv⟩ := refreshDuties_of_divisor (s := u.startReset) true hdivisor
  have hstart : start u = .ok v.startedFrom := start_iff.mpr ⟨v, hv, rfl⟩
  exact ⟨_, started_of_start hstart, (pollTrigger_of_start hidle hstopped htrig hmode).trans hstart⟩

/-- Settles O39: part 1 leaves the state itself or its compilation, which has the same run state, running flag, trigger
and mode; part 2 starts from there. -/
theorem pollStartsTheWaveform : Obligations.PollStartsTheWaveform := by
  intro s hidle hstopped htrig hmode hfreq
  cases hdirty : s.hwDirty with
  | false =>
    obtain ⟨t, ht, hpart2⟩ := pollTrigger_starts hidle hstopped htrig hmode fun hspeed => hfreq (.inr hspeed)
    exact ⟨s, t, rfl, ht, exec_poll_of_clean hdirty hpart2⟩
  | true =>
    have hdivisor := hfreq (.inl hdirty)
    obtain ⟨u, hu, hpart1⟩ := pollReconfig_compiles hidle hdirty hdivisor
    obtain ⟨t, ht, hpart2⟩ := pollTrigger_starts (hu.run_eq.trans hidle) (hu.running_eq.trans hstopped)
      (hu.triggered_iff.mpr htrig) (hu.stat_eq ▸ hmode) fun _ => hu.stat_eq ▸ hdivisor
    refine ⟨u, t, hu, ht, ?_⟩
    rw [exec_poll_of_pollReconfig hpart1, hpart2]
    rfl

/-! ### What moves the state register -/

/-- Part 1 of `POLL` leaves the state register (R211). -/
theorem pollReconfig_run {s t : State} (h : pollReconfig s = .ok t) : t.eng.run = s.eng.run := by
  obtain ⟨-, -, -, rfl⟩ | ⟨-, rfl⟩ := pollReconfig_ok h
  · exact congrArg (·.run) s.reconfigured_eng
  · rfl

/-- Part 2 of `POLL` leaves the state register or starts (R212, R214). -/
theorem pollTrigger_run {s t : State} (h : pollTrigger s = .ok t) :
    t.eng.run = s.eng.run ∨ t.eng.run = .running := by
  obtain ⟨-, -, -, ⟨-, rfl⟩ | ⟨-, hstart⟩⟩ | ⟨-, rfl⟩ := pollTrigger_ok h
  · exact .inl rfl
  · exact .inr (started_of_start hstart).run
  · exact .inl rfl

theorem execPoll_run {s t : State} (h : execPoll s = .next t) : t.eng.run = s.eng.run ∨ t.eng.run = .running := by
  obtain ⟨u, hu, ht⟩ := execPoll_next h
  rw [← pollReconfig_run hu]
  exact pollTrigger_run ht

/-- The duty pass leaves the state register (R240). -/
theorem dutyPass_run {force : Bool} {s t : State} (h : dutyPass force s = .ok t) : t.eng.run = s.eng.run := by
  obtain ⟨u, hu, rfl⟩ := dutyPass_ok h
  obtain ⟨acc, delta, duties, rfl⟩ := refreshDuties_frame hu
  rfl

/-- `CYCLE` leaves the state register or goes to IDLE (R230, R236). -/
theorem execCycle_run {s t : State} (h : execCycle s = .next t) : t.eng.run = s.eng.run ∨ t.eng.run = .idle := by
  obtain ⟨-, rfl⟩ | ⟨-, hc⟩ := execCycle_next h
  · exact .inl rfl
  obtain ⟨-, rfl⟩ | ⟨-, -, u, hu, rfl⟩ := cycleHandler_ok hc
  · exact .inr rfl
  · rw [State.advanceBurst_eq]
    exact .inl (dutyPass_run hu :)

/-- Who writes the working registers (R86). -/
theorem exec_eng_owner {i : Instr} {s t : State} (h : exec i s = .next t) (hne : t.eng ≠ s.eng) :
    i = .poll ∨ i = .cycle := by
  cases exec_writes h with
  | poll => exact .inl rfl
  | cycle => exact .inr rfl
  | nothing | store | configure | arm | abort | rstdef | dlyexp | rstdone => exact absurd rfl hne

theorem RunState.eq_idle_of_ne {r : RunState} (h : r ≠ .running) : r = .idle := by
  cases r
  · rfl
  · exact absurd rfl h

theorem RunState.eq_running_of_ne {r : RunState} (h : r ≠ .idle) : r = .running := by
  cases r
  · exact absurd rfl h
  · rfl

/-- Settles O56: `POLL` and `CYCLE` alone write the engine, and each moves the state register one way. -/
theorem onlyPollAndCycleMoveTheState : Obligations.OnlyPollAndCycleMoveTheState := by
  intro i s t h hmoved
  obtain rfl | rfl := exec_eng_owner h fun heng => hmoved (congrArg (·.run) heng)
  · have hto : t.eng.run = .running := (execPoll_run h).resolve_left hmoved
    exact .inl ⟨rfl, RunState.eq_idle_of_ne fun hfrom => hmoved (hto.trans hfrom.symm), hto⟩
  · have hto : t.eng.run = .idle := (execCycle_run h).resolve_left hmoved
    exact .inr ⟨rfl, RunState.eq_running_of_ne fun hfrom => hmoved (hto.trans hfrom.symm), hto⟩

/-! ### The end by `ABORT` -/

theorem exec_abort_of_free {s : State} (hfree : s.rstWait = false) :
    exec .abort s = .next (State.respond { s with running := false } .ok 0) :=
  hostCommand_of_free _ _ hfree

theorem exec_rdStatus_of_free {s : State} (hfree : s.rstWait = false) :
    exec .rdStatus s = .next (s.respond .ok s.statusWord) :=
  hostCommand_of_free _ _ hfree

/-- Stopped in IDLE the status word is 0 (R58). -/
theorem State.statusWord_of_idle {s : State} (hidle : s.eng.run = .idle) (hstopped : s.running = false) :
    s.statusWord = 0 := by
  rw [State.statusWord, State.isRunning_of_idle hidle, hstopped]
  rfl

/-- Settles O58: `ABORT` leaves the interrupt enabled, so the next `CYCLE` finds the running flag clear and stops. -/
theorem abortThenCycleReturnsToIdle : Obligations.AbortThenCycleReturnsToIdle := by
  intro s hlegal hfree hrun
  refine ⟨_, _, _, exec_abort_of_free hfree, hrun, execCycle_stops (hlegal.irqEnabled.mpr hrun) (.inr rfl), rfl,
    exec_rdStatus_of_free hfree, ?_⟩
  rw [State.respond_rsp, State.statusWord_of_idle rfl rfl]
  rfl

end Sys2Proof.Machine

/-! The bounds on the compare levels (R252): the room that the clipper leaves for the deadtime on both sides of a duty,
and the operations that keep the bounds. -/

namespace Sys2Proof.Machine

/-! ### The room for the deadtime -/

/-- A whole number of counts that the exact deadtime of one side does not pass is not passed by half of the rounded
total (R159, R252). -/
theorem dtTotalOf_le_two_mul {dt f mc n : Nat} (h : dt * f * mc ≤ n * 10 ^ 12) : dtTotalOf dt f mc ≤ 2 * n := by
  rw [dtTotalOf, roundDiv, ← Nat.lt_succ_iff, Nat.div_lt_iff_lt_mul (by norm_num)]
  omega

/-- The lower clip bound covers the deadtime's part of the margin (R160). -/
theorem deadtime_le_clipLoOf (md dt f : Nat) : dt * f * 2 ^ 33 ≤ clipLoOf md dt f * 10 ^ 12 := by
  have hceil : ruleMargin md dt f * 2 ^ 33 ≤ clipLoOf md dt f := by
    rw [clipLoOf_eq_rule]
    exact Nat.le_ceil _
  have hpart : ((dt * f : ℕ) : ℚ) / 10 ^ 12 ≤ ruleMargin md dt f := le_add_of_nonneg_left (by positivity)
  have hq : ((dt * f : ℕ) : ℚ) * 2 ^ 33 ≤ clipLoOf md dt f * 10 ^ 12 := by
    rw [div_le_iff₀ (by positivity)] at hpart
    linarith
  exact_mod_cast hq

/-- The same in counts of the counter period. -/
theorem State.deadtime_le_newClipLo (s : State) :
    s.stat.deadtime.toNat * s.stat.freq.toNat * s.newMaxCounter * 2 ^ 33 ≤
      s.newClipLo * s.newMaxCounter * 10 ^ 12 := by
  have hclip : _ ≤ s.newClipLo * 10 ^ 12 := deadtime_le_clipLoOf _ _ _
  calc s.stat.deadtime.toNat * s.stat.freq.toNat * s.newMaxCounter * 2 ^ 33
      = s.stat.deadtime.toNat * s.stat.freq.toNat * 2 ^ 33 * s.newMaxCounter := by ring
    _ ≤ s.newClipLo * 10 ^ 12 * s.newMaxCounter := Nat.mul_le_mul_right _ hclip
    _ = s.newClipLo * s.newMaxCounter * 10 ^ 12 := by ring

section
variable {s : State} (h : StaticLegal s.params s.stat) (hc : s.compiled = s.drv)
include h hc

/-- The exact deadtime of one side, in counts, that the clipped duty leaves room for at its lower end (R247, R248). -/
theorem deadtime_lt_succ_counts (k : Phase) :
    s.stat.deadtime.toNat * s.stat.freq.toNat * s.newMaxCounter < (s.counts k + 1) * 10 ^ 12 := by
  have hlo := (clippedDuty_bounds h hc k).1
  have hcounts : s.clippedDuty k * s.newMaxCounter < (s.counts k + 1) * 2 ^ 33 := by
    rw [State.counts, ← hc, h.compiled_maxCounter]
    exact Nat.lt_mul_of_div_lt (Nat.lt_succ_self _) (by norm_num)
  refine Nat.lt_of_mul_lt_mul_right (a := 2 ^ 33) ?_
  calc s.stat.deadtime.toNat * s.stat.freq.toNat * s.newMaxCounter * 2 ^ 33
      ≤ s.newClipLo * s.newMaxCounter * 10 ^ 12 := s.deadtime_le_newClipLo
    _ ≤ s.clippedDuty k * s.newMaxCounter * 10 ^ 12 := by gcongr
    _ < (s.counts k + 1) * 2 ^ 33 * 10 ^ 12 := by gcongr
    _ = (s.counts k + 1) * 10 ^ 12 * 2 ^ 33 := by ring

/-- The same room at the upper end, below the counter period (R247, R248). -/
theorem deadtime_le_sub_counts (k : Phase) :
    s.stat.deadtime.toNat * s.stat.freq.toNat * s.newMaxCounter ≤ (s.newMaxCounter - s.counts k) * 10 ^ 12 := by
  have hhi := (clippedDuty_bounds h hc k).2
  have hroom : s.newClipLo * s.newMaxCounter ≤ (s.newMaxCounter - s.counts k) * 2 ^ 33 := by
    have hle := h.newClipLo_le
    have hcounts : s.counts k * 2 ^ 33 ≤ s.clippedDuty k * s.newMaxCounter := by
      rw [State.counts, ← hc, h.compiled_maxCounter]
      exact Nat.div_mul_le_self _ _
    have hsum : (s.newClipLo + s.clippedDuty k) * s.newMaxCounter ≤ 2 ^ 33 * s.newMaxCounter :=
      Nat.mul_le_mul_right _ (by omega)
    rw [Nat.add_mul] at hsum
    rw [Nat.sub_mul]
    omega
  refine Nat.le_of_mul_le_mul_right (c := 2 ^ 33) ?_ (by norm_num)
  calc s.stat.deadtime.toNat * s.stat.freq.toNat * s.newMaxCounter * 2 ^ 33
      ≤ s.newClipLo * s.newMaxCounter * 10 ^ 12 := s.deadtime_le_newClipLo
    _ ≤ (s.newMaxCounter - s.counts k) * 2 ^ 33 * 10 ^ 12 := Nat.mul_le_mul_right _ hroom
    _ = (s.newMaxCounter - s.counts k) * 10 ^ 12 * 2 ^ 33 := by ring

/-- Half of the deadtime, rounded down, takes at most one count more than the duty gives (R249, R252). -/
theorem neg_one_le_slotLevel_low (k : Phase) : -1 ≤ s.slotLevel k.lowSlot := by
  have hdt : s.newDtTotal ≤ 2 * (s.counts k + 1) := dtTotalOf_le_two_mul (deadtime_lt_succ_counts h hc k).le
  rw [State.slotLevel, Phase.lowSlot_side, Phase.lowSlot_phase, ← hc, h.compiled_dtLow]
  dsimp only
  omega

/-- Half of the deadtime, rounded up, fits above the counts (R249, R252). -/
theorem slotLevel_high_le (k : Phase) : s.slotLevel k.highSlot ≤ (s.drv.maxCounter.toNat : Int) := by
  have hdt : s.newDtTotal ≤ 2 * (s.newMaxCounter - s.counts k) := dtTotalOf_le_two_mul (deadtime_le_sub_counts h hc k)
  have hcounts := counts_le h hc k
  rw [State.slotLevel, Phase.highSlot_side, Phase.highSlot_phase, ← hc, h.compiled_dtHigh, h.compiled_maxCounter]
  dsimp only
  omega

/-- Steps 4 and 5 leave the levels of each active phase within the bounds (R252). -/
theorem withLevels_levelsBounded : LevelsBounded s.withLevels := by
  intro _ k hk
  have hk : phaseActive s.phases k = true := hk
  simp only [State.withLevels_ch_get, slotActive, Phase.highSlot_phase, Phase.lowSlot_phase, hk, if_true,
    toInt_slotLevel h hc, State.withLevels_drv]
  exact ⟨neg_one_le_slotLevel_low h hc k, slotLevel_high_le h hc k⟩

end

/-! ### What keeps the bounds -/

/-- The bounds speak of the levels of active phases and the counter period, in RUNNING. -/
theorem LevelsBounded.congr {s t : State} (h : LevelsBounded s) (hrun : t.eng.run = .running → s.eng.run = .running)
    (hactive : ∀ k, phaseActive t.phases k = true → phaseActive s.phases k = true)
    (hlevel : ∀ sl, (t.ch.get sl).level = (s.ch.get sl).level) (hdrv : t.drv = s.drv) : LevelsBounded t := by
  intro hr k hk
  rw [hlevel, hlevel, hdrv]
  exact h (hrun hr) k (hactive k hk)

theorem levelsBounded_of_not_running {s : State} (h : s.eng.run ≠ .running) : LevelsBounded s :=
  fun hr => absurd hr h

theorem LevelsBounded.clearWires {s : State} (h : LevelsBounded s) : LevelsBounded s.clearWires :=
  h.congr id (fun _ => id) (fun sl => by rw [State.clearWires_ch_get]) rfl

theorem LevelsBounded.served {s : State} (h : LevelsBounded s) (pending : List Occasion) :
    LevelsBounded (s.served pending) := h.clearWires

theorem LevelsBounded.servedHost {s : State} (h : LevelsBounded s) (c : HostCmd) (pending : List Occasion) :
    LevelsBounded (s.servedHost c pending) := h.clearWires

/-- The duty pass on current parameters computes every active level anew (R240). -/
theorem dutyPass_levelsBounded {force : Bool} {s t : State} (h : Primed s) (ht : dutyPass force s = .ok t) :
    LevelsBounded t := by
  obtain ⟨u, hu, rfl⟩ := dutyPass_ok ht
  have hlevels : LevelsBounded u.withLevels := by
    obtain ⟨acc, delta, duties, rfl⟩ := refreshDuties_frame hu
    exact withLevels_levelsBounded h.static h.drv_compiled
  exact hlevels

/-- A `POLL` leaves a running state alone, stays in IDLE or starts with a duty pass (R210, R212, R214). -/
theorem LevelsBounded.execPoll {s t : State} (hb : LevelsBounded s) (h : Legal s) (ht : execPoll s = .next t) :
    LevelsBounded t := by
  obtain ⟨u, hu, hpoll⟩ := execPoll_next ht
  obtain ⟨hlegal, hclean⟩ := h.pollReconfig hu
  have hbu : LevelsBounded u := by
    obtain ⟨hidle, -, -, rfl⟩ | ⟨-, rfl⟩ := pollReconfig_ok hu
    · exact levelsBounded_of_not_running (State.run_ne_running hidle)
    · exact hb
  obtain ⟨hidle, -, -, ⟨-, rfl⟩ | ⟨hmode, hstart⟩⟩ | ⟨-, rfl⟩ := pollTrigger_ok hpoll
  · exact levelsBounded_of_not_running (State.run_ne_running hidle)
  · obtain ⟨v, hv, rfl⟩ := start_ok hstart
    refine (dutyPass_levelsBounded (hlegal.primed_startReset hmode (hclean hidle)) hv).congr id (fun _ => id)
      (fun sl => ?_) rfl
    rw [State.enableOutputs_ch_get]
    split <;> rfl
  · exact hbu

/-- A `CYCLE` is ignored, goes to IDLE or runs the duty pass (R230). -/
theorem LevelsBounded.execCycle {s t : State} (hb : LevelsBounded s) (h : Legal s) (ht : execCycle s = .next t) :
    LevelsBounded t := by
  obtain ⟨-, rfl⟩ | ⟨hirq, hc⟩ := execCycle_next ht
  · exact hb
  obtain ⟨-, rfl⟩ | ⟨-, -, u, hu, rfl⟩ := cycleHandler_ok hc
  · exact levelsBounded_of_not_running fun hr => nomatch hr
  · rw [State.advanceBurst_eq]
    exact (dutyPass_levelsBounded (h.primed (h.irqEnabled.mp hirq)) hu).congr id (fun _ => id) (fun _ => rfl) rfl

/-- In RUNNING the enabled slots are the active ones, so an operation that leaves the channel port leaves the active
phases (R64 item 9). -/
theorem Legal.phaseActive_of_ch_eq {s t : State} (hs : Legal s) (ht : Legal t) (hrun : t.eng.run = .running)
    (hch : t.ch = s.ch) {k : Phase} (hk : phaseActive t.phases k = true) : phaseActive s.phases k = true := by
  have hon : slotActive t.phases k.lowSlot = true := by rwa [slotActive, Phase.lowSlot_phase]
  have hen := (ht.enabledSlots k.lowSlot).mpr ⟨hrun, hon⟩
  rw [hch] at hen
  obtain ⟨-, hactive⟩ := (hs.enabledSlots k.lowSlot).mp hen
  rwa [slotActive, Phase.lowSlot_phase] at hactive

/-- An operation that leaves the channel port, the working registers and the compiled parameters keeps the bounds. -/
theorem LevelsBounded.of_port_eq {s t : State} (hb : LevelsBounded s) (hs : Legal s) (ht : Legal t)
    (heng : t.eng = s.eng) (hdrv : t.drv = s.drv) (hch : t.ch = s.ch) : LevelsBounded t := by
  intro hrun
  exact hb.congr (fun hr => heng ▸ hr) (fun _ hk => hs.phaseActive_of_ch_eq ht hrun hch hk) (fun _ => by rw [hch]) hdrv
    hrun

/-- Every operation keeps the bounds: `POLL` and `CYCLE` alone write what they speak of (R86, R252). -/
theorem LevelsBounded.exec {i : Instr} {s t : State} (hb : LevelsBounded s) (h : Legal s) (ht : exec i s = .next t) :
    LevelsBounded t := by
  have hlegal := h.exec ht
  cases exec_writes ht with
  | poll => exact hb.execPoll h ht
  | cycle => exact hb.execCycle h ht
  | nothing | store | configure | arm | abort | rstdef | dlyexp | rstdone => exact hb.of_port_eq h hlegal rfl rfl rfl

/-- The rest of a step, the fall of the wires and what is taken from the ports, leaves the levels. -/
theorem LevelsBounded.step {s t : State} (hb : LevelsBounded s) (h : Legal s) (ht : step s = .next t) :
    LevelsBounded t := by
  obtain ⟨-, rfl⟩ | ⟨e, pending, -, hexec⟩ | ⟨c, pending, -, ⟨i, -, hexec⟩ | ⟨-, rfl⟩⟩ := step_next ht
  · exact hb.clearWires
  · exact (hb.served pending).exec (h.served pending) hexec
  · exact (hb.servedHost c pending).exec (h.servedHost c pending) hexec
  · exact hb.clearWires

/-- Settles O54: IDLE after reset, and every step keeps the bounds by the clipper's margin, which leaves room for each
half of the deadtime. -/
theorem levelsStayBounded : Obligations.LevelsStayBounded :=
  ⟨fun _ => levelsBounded_of_not_running (nomatch ·), fun _ _ h hb ht => hb.step h ht⟩

end Sys2Proof.Machine

/-! The cycle-boundary handler (R230 to R251): what a `CYCLE` leaves when it stops and what it computes in each control
mode, the exact duties and the margin of the clipper; then the runs that never stop (R254) and the pins of a phase (R249,
GK2). -/

namespace Sys2Proof.Machine

/-! ### A `CYCLE` that stops -/

/-- Settles O42: the check of step 2 comes before the duty pass, so all that is written is the transition to IDLE. -/
theorem cycleStopsAtBurstEndOrAbort : Obligations.CycleStopsAtBurstEndOrAbort := by
  intro s hirq hstops
  have hcheck : s.burstStop = true ∨ s.running = false := hstops.symm.imp_left s.burstStop_iff.mpr
  refine ⟨s.toIdle, execCycle_stops hirq hcheck, rfl, fun sl hsl => ?active, fun sl hsl => ?inactive⟩
  case active =>
    rw [State.toIdle_ch_get, if_pos ((slotActive_iff _ sl).mpr hsl), State.idleLevel]
    cases (s.stat.ph.get sl).idle <;> rfl
  case inactive =>
    rw [State.toIdle_ch_get, if_neg (Bool.eq_false_iff.mp ((slotActive_false_iff _ sl).mpr hsl))]

/-! ### A `CYCLE` that computes, in each control mode -/

/-- The state that a computing `CYCLE` leaves, from the state `u` after its step 3 (R240, R250, R251). -/
def State.computedFrom (u : State) : State := State.advanceBurst { u.withLevels with reload := false }

/-- Behind step 3 a computing `CYCLE` writes the burst counters, the records and the reload flag. -/
theorem State.computedFrom_frame (u : State) :
    u.computedFrom =
      { u with
        eng    := { u.eng with burstCycles := u.computedFrom.eng.burstCycles
                               burstTicks  := u.computedFrom.eng.burstTicks }
        ch     := u.computedFrom.ch
        reload := false } := by
  rw [State.computedFrom, State.advanceBurst_eq]
  rfl

theorem State.computedFrom_ch (u : State) : u.computedFrom.ch = u.withLevels.ch := by
  rw [State.computedFrom, State.advanceBurst_eq]

section
variable {s u : State} (hu : refreshDuties s.reload s = .ok u)
include hu

/-- A `CYCLE` whose check of step 2 lets it go on (R230, R232). -/
theorem exec_cycle_computedFrom (hirq : s.irqEn = true) (hrunning : s.running = true) (hgoes : ¬ ruleBurstEnds s) :
    exec .cycle s = .next u.computedFrom :=
  execCycle_computes hirq hrunning (Bool.eq_false_iff.mpr fun hb => hgoes (s.burstStop_iff.mp hb)) hu

/-- The levels come from the duties that step 3 leaves (R247 to R249). -/
theorem levelsFollow_computedFrom : levelsFollow s u.computedFrom := by
  intro sl
  rw [u.computedFrom_ch, u.computedFrom_frame, State.withLevels_ch_get, u.slotLevel_eq_rule]
  obtain ⟨acc, delta, duties, rfl⟩ := refreshDuties_frame hu
  rfl

/-- Step 6 counts on from the counters before, which step 3 leaves (R250). -/
theorem counterAdvances_computedFrom : counterAdvances s u.computedFrom := by
  rw [State.computedFrom, State.advanceBurst_eq]
  obtain ⟨acc, delta, duties, rfl⟩ := refreshDuties_frame hu
  exact ⟨rfl, rfl⟩

/-- The duties of a modulating mode: the rule's for an active phase, the old ones for the others (R243). -/
theorem ruleModulated_computedFrom (hmode : s.stat.ctrlMode ≠ .directDuty) (k : Phase) :
    if k.idx < s.stat.opMode.code then
      ruleModulated s.params s.stat.opMode.code s.runtime.modIndex.toNat u.computedFrom.eng.phaseAcc k
        (u.computedFrom.eng.dutyActive.get k)
    else u.computedFrom.eng.dutyActive.get k = s.eng.dutyActive.get k := by
  rw [u.computedFrom_frame]
  dsimp only
  split
  next hk =>
    rw [refreshDuties_modulated hu hmode hk]
    exact modulatedDuty_rule s _ k hk
  next hk => exact refreshDuties_inactive hu (not_lt.mp hk)

end

theorem refreshDuties_of_direct (rl : Bool) {s : State} (hmode : s.stat.ctrlMode = .directDuty) :
    refreshDuties rl s = .ok (refreshDirect rl s) := by
  rw [refreshDuties, hmode]

theorem refreshDuties_of_angle (rl : Bool) {s : State} (hmode : s.stat.ctrlMode = .modAngle) :
    refreshDuties rl s = .ok (refreshAngle rl s) := by
  rw [refreshDuties, hmode]

/-- A reload alone divides (R244, U2). -/
theorem refreshDuties_of_speed {rl : Bool} {s : State} (hmode : s.stat.ctrlMode = .modSpeed)
    (hfreq : rl = true → s.stat.freq ≠ 0) : refreshDuties rl s = .ok (refreshSpeed rl s) := by
  have hdivides : (rl && decide (s.stat.freq = 0)) = false := by simpa using hfreq
  rw [refreshDuties, hmode]
  dsimp only
  rw [hdivides]
  rfl

/-- With a reload DIRECT_DUTY copies the duties of the active phases, without one it keeps every duty (R241). -/
theorem refreshDirect_dutyActive_get (rl : Bool) (s : State) (k : Phase) :
    (refreshDirect rl s).eng.dutyActive.get k =
      if rl = true ∧ k.idx < s.stat.opMode.code then BitVec.ofNat 34 ((s.runtime.duty.get k).toNat * 2 ^ 17)
      else s.eng.dutyActive.get k := by
  cases rl with
  | false => simp [refreshDirect]
  | true => simp [refreshDirect, phaseActive_iff]

/-- Settles O43: step 3 of DIRECT_DUTY, then what every computing `CYCLE` does. -/
theorem cycleComputesDirectDuties : Obligations.CycleComputesDirectDuties := by
  intro s hirq hrunning hgoes hmode
  have hu := refreshDuties_of_direct s.reload hmode
  refine ⟨_, exec_cycle_computedFrom hu hirq hrunning hgoes, ?frame, fun k => ?duty, levelsFollow_computedFrom hu,
    counterAdvances_computedFrom hu⟩
  case frame =>
    rw [State.computedFrom_frame]
    cases s.reload <;> rfl
  case duty =>
    rw [State.computedFrom_frame]
    exact refreshDirect_dutyActive_get _ s k

/-- Settles O44: step 3 of MOD_ANGLE, then what every computing `CYCLE` does. -/
theorem cycleComputesAngleDuties : Obligations.CycleComputesAngleDuties := by
  intro s hirq hrunning hgoes hmode
  have hu := refreshDuties_of_angle s.reload hmode
  have hmod : s.stat.ctrlMode ≠ .directDuty := by rw [hmode]; decide
  refine ⟨_, exec_cycle_computedFrom hu hirq hrunning hgoes, ?frame, ?acc, ruleModulated_computedFrom hu hmod,
    levelsFollow_computedFrom hu, counterAdvances_computedFrom hu⟩
  case frame | acc =>
    rw [State.computedFrom_frame]
    rfl

/-- Settles O45: step 3 of MOD_SPEED, then what every computing `CYCLE` does. -/
theorem cycleComputesSpeedDuties : Obligations.CycleComputesSpeedDuties := by
  intro s hirq hrunning hgoes hmode hfreq
  have hu := refreshDuties_of_speed hmode hfreq
  have hmod : s.stat.ctrlMode ≠ .directDuty := by rw [hmode]; decide
  refine ⟨_, exec_cycle_computedFrom hu hirq hrunning hgoes, ?frame, ?delta, ?acc, ruleModulated_computedFrom hu hmod,
    levelsFollow_computedFrom hu, counterAdvances_computedFrom hu⟩
  case frame | acc =>
    rw [State.computedFrom_frame]
    rfl
  case delta =>
    rw [State.computedFrom_frame, ← speedToDelta_eq_rule]
    rfl

/-! ### The exact duties -/

/-- A modulated duty as a number: no swing leaves the duty range (R243). -/
theorem toNat_modulatedDuty {s : State} (hp : s.params.tableWf = true) (hm : s.runtime.modIndex.toNat ≤ 65536)
    (acc : BitVec 32) (k : Phase) :
    ((modulatedDuty s acc k).toNat : Int) =
      2 ^ 32 + dutySwing s.params s.runtime.modIndex.toNat (sine s.params (acc + phaseOffset s.stat.opMode k)) := by
  have hswing := swingMagnitude_le s.params hm (natAbs_sine_le hp (acc + phaseOffset s.stat.opMode k))
  rw [modulatedDuty, dutySwing, BitVec.toNat_ofInt]
  split_ifs <;> omega

/-- Settles O49: the second phase of 2-PHASE looks up half a turn on, where the swing is the opposite; at the decided
scale a swing is the exact product. -/
theorem twoPhaseDutiesSumToOne : Obligations.TwoPhaseDutiesSumToOne := by
  intro s acc hp hm
  refine ⟨fun htwo => ?sum, fun hamp k hk => ?exact⟩
  case sum =>
    have h0 := toNat_modulatedDuty hp hm acc .p0
    have h1 := toNat_modulatedDuty hp hm acc .p1
    rw [htwo] at h0 h1
    have hoff0 : acc + phaseOffset .ph2 .p0 = acc := BitVec.add_zero acc
    have hoff1 : sine s.params (acc + phaseOffset .ph2 .p1) = -sine s.params acc := sine_half_turn s.params acc
    rw [hoff0] at h0
    rw [hoff1, dutySwing_neg] at h1
    omega
  case exact =>
    rw [toNat_modulatedDuty hp hm, dutySwing_exact _ _ _ hamp.le, add_phaseOffset _ _ _ hk, hamp, Nat.sub_self, pow_zero,
      mul_one]

/-! ### The margin of the clipper -/

/-- Settles O51: the lower bound is the margin rounded up, the upper one its complement, and the clipper returns no duty
outside them. -/
theorem clippedDutyKeepsTheMargin : Obligations.ClippedDutyKeepsTheMargin := by
  intro s raw k h hclean hmode u margin
  have hsame : SameProgram s u := ⟨rfl, rfl, rfl, rfl, rfl, fun _ => rfl⟩
  have hdrv : u.compiled = u.drv :=
    (u.reconfigured_eq_self_iff.mp (hsame.reconfigured_eq_self (h.compiled hclean hmode))).1
  have hstatic : StaticLegal u.params u.stat := h.static
  obtain ⟨hlo, hhi⟩ := clippedDuty_bounds hstatic hdrv k
  have hle := hstatic.newClipLo_le
  have hmargin : margin * 2 ^ 33 ≤ u.newClipLo := by
    rw [State.newClipLo, clipLoOf_eq_rule]
    exact Nat.le_ceil _
  have hlo' : (u.newClipLo : ℚ) ≤ u.clippedDuty k := by exact_mod_cast hlo
  have hhi' : (u.clippedDuty k + u.newClipLo : ℚ) ≤ 2 ^ 33 := by exact_mod_cast (show _ ≤ 2 ^ 33 by omega)
  constructor
  · rw [le_div_iff₀ (by positivity)]
    linarith
  · rw [div_le_iff₀ (by positivity)]
    linarith

/-! ### No stop -/

/-- Part 1 of `POLL` divides by `FREQ` alone (R151, R211). -/
theorem pollReconfig_goes {s : State} (hfreq : s.stat.freq ≠ 0) : ∃ t, pollReconfig s = .ok t := by
  unfold pollReconfig
  split
  · exact ⟨_, by rw [reconfig_of_freq hfreq]⟩
  · exact ⟨s, rfl⟩

/-- So does `START`, in its priming pass (R217, R244). -/
theorem start_goes {s : State} (hfreq : s.stat.freq ≠ 0) : ∃ t, start s = .ok t := by
  obtain ⟨u, hu⟩ := refreshDuties_of_freq (s := s.startReset) true hfreq
  exact ⟨u.startedFrom, start_iff.mpr ⟨u, hu, rfl⟩⟩

theorem pollTrigger_goes {s : State} (hfreq : s.stat.freq ≠ 0) : ∃ t, pollTrigger s = .ok t := by
  unfold pollTrigger
  split
  · split
    · exact ⟨_, rfl⟩
    · exact start_goes hfreq
  · exact ⟨s, rfl⟩

/-- The second part of a `POLL` finds a legal state too, so it divides by no zero either. -/
theorem exec_poll_goes {s : State} (h : Legal s) : ∃ t, exec .poll s = .next t := by
  obtain ⟨u, hu⟩ := pollReconfig_goes h.freq_ne_zero
  obtain ⟨hlegal, -⟩ := h.pollReconfig hu
  obtain ⟨t, ht⟩ := pollTrigger_goes hlegal.freq_ne_zero
  exact ⟨t, by rw [exec_poll_of_pollReconfig hu, ht]; rfl⟩

/-- From a legal state the interrupt path never fails: it is ignored, stops or computes (R230, R254). -/
theorem exec_cycle_goes {s : State} (h : Legal s) : ∃ t, exec .cycle s = .next t := by
  by_cases hirq : s.irqEn = true
  · by_cases hgoes : s.running = true ∧ ¬ ruleBurstEnds s
    · obtain ⟨hrunning, hgoes⟩ := hgoes
      obtain ⟨u, hu⟩ := refreshDuties_of_freq s.reload h.freq_ne_zero
      exact ⟨_, exec_cycle_computedFrom hu hirq hrunning hgoes⟩
    · have hstops : s.burstStop = true ∨ s.running = false := by
        rw [s.burstStop_iff]
        rwa [not_and_or, not_not, Bool.not_eq_true, or_comm] at hgoes
      exact ⟨_, execCycle_stops hirq hstops⟩
  · exact ⟨s, if_neg hirq⟩

/-- From a legal state every operation goes on, a host command while the host does not wait (R340, R344). -/
theorem exec_goes {i : Instr} {s : State} (h : Legal s) (hfree : fromHost i = true → s.rstWait = false) :
    ∃ t, exec i s = .next t := by
  cases i with
  | cycle => exact exec_cycle_goes h
  | poll => exact exec_poll_goes h
  | dlyexp | itfire | rstdone => exact ⟨_, rfl⟩
  | _ => exact ⟨_, hostCommand_of_free s _ (hfree rfl)⟩

theorem fromHost_event (e : Event) : fromHost e.instr = false := by cases e <;> rfl

/-- From a legal state every step goes on: the host is served only while it does not wait (U9). -/
theorem step_goes {s : State} (h : Legal s) : ∃ t, step s = .next t := by
  unfold step
  split
  next => exact ⟨_, rfl⟩
  next e pending _ => exact exec_goes (h.served pending) fun hhost => absurd hhost (by rw [fromHost_event]; decide)
  next c pending htake =>
    obtain ⟨_, hevent, -⟩ | ⟨_, -, hfree, -⟩ := takeNext_pendingRequests htake
    · cases hevent
    · split
      · exact exec_goes (h.servedHost c pending) fun _ => hfree
      · exact ⟨_, rfl⟩

/-- A run from a legal state goes on for any number of steps (R18). -/
theorem runSteps_goes {s : State} (h : Legal s) (k : Nat) : ∃ t, runSteps k s = .next t ∧ Legal t := by
  induction k generalizing s with
  | zero => exact ⟨s, rfl, h⟩
  | succ k ih =>
    obtain ⟨t, ht⟩ := step_goes h
    obtain ⟨u, hu, hlegal⟩ := ih (h.step ht)
    exact ⟨u, runSteps_succ ht hu, hlegal⟩

/-- Settles O53: every step goes on and keeps the state legal, from the reset state on, whatever is presented. -/
theorem legalStatesNeverStop : Obligations.LegalStatesNeverStop := by
  refine ⟨fun _ h => step_goes h, fun p presented k hp => ?_⟩
  have hstart : Legal (State.powerOn p presented) := (legal_resetWith hp).of_view rfl
  exact runSteps_goes hstart k

/-! ### The pins of a phase -/

/-- In RUNNING the records of the active slots hold the polarity of the configuration (R155, R157). -/
theorem Legal.polInv_eq {s : State} (h : Legal s) (hrun : s.eng.run = .running) {sl : Slot}
    (hsl : slotActive s.phases sl = true) : (s.ch.get sl).polInv = s.newPolarity sl := by
  obtain ⟨-, -, -, hch⟩ := s.reconfigured_eq_self_iff.mp (h.primed hrun).compiled
  rw [← (s.programmed_eq_iff sl).mpr (hch sl hsl)]
  rfl

/-- Settles O55: the low-side pin is active below its level, the inverted high-side pin from its own on, and the high-side
level is not the lower of the two. -/
theorem noShootThrough : Obligations.NoShootThrough := by
  intro s k counter h hrun hk hlow hhigh
  have hapart := h.levelsApart hrun k hk
  have hlowPol := h.polInv_eq hrun (sl := k.lowSlot) (by rwa [slotActive, Phase.lowSlot_phase])
  have hhighPol := h.polInv_eq hrun (sl := k.highSlot) (by rwa [slotActive, Phase.highSlot_phase])
  rw [s.newPolarity_eq, Phase.lowSlot_side, if_pos rfl, hlow] at hlowPol
  rw [s.newPolarity_eq, Phase.highSlot_side, if_neg (by decide), hhigh] at hhighPol
  simp only [pinActive, hlowPol, hhighPol, Bool.not_false, Bool.xor_false, Bool.xor_true, Bool.not_eq_true',
    decide_eq_true_iff, decide_eq_false_iff_not]
  omega

end Sys2Proof.Machine

/-! The host's commands (R270 to R294): the checks of each setter in its rule's order with what it stores, the raw value
that each read answers, and what a refusal leaves. -/

namespace Sys2Proof.Machine

/-! ### The checks of a setter, in their order -/

section Checks

variable {b : Bool} {st : Status} {l : List (Bool × Status)}

theorem firstFailing_of_fails (h : b = true) : firstFailing ((b, st) :: l) = some st := by
  rw [h, firstFailing_true]

theorem firstFailing_of_passes (h : b = false) : firstFailing ((b, st) :: l) = firstFailing l := by
  rw [h, firstFailing_false]

/-- A check that a bound holds fails where the bound does not hold. -/
theorem firstFailing_of_unmet (h : ¬ b = true) : firstFailing ((!b, st) :: l) = some st :=
  firstFailing_of_fails (by rw [Bool.eq_false_iff.mpr h, Bool.not_false])

theorem firstFailing_of_met (h : b = true) : firstFailing ((!b, st) :: l) = firstFailing l :=
  firstFailing_of_passes (by rw [h, Bool.not_true])

variable {s : State}

theorem firstFailing_of_running (h : s.eng.run = .running) : firstFailing ((s.isRunning, st) :: l) = some st :=
  firstFailing_of_fails (State.isRunning_of_running h)

theorem firstFailing_of_idle (h : s.eng.run = .idle) : firstFailing ((s.isRunning, st) :: l) = firstFailing l :=
  firstFailing_of_passes (State.isRunning_of_idle h)

end Checks

/-! ### Operands by their values -/

theorem word_eq_ofNat {v : Word} {n : Nat} (h : v.toNat = n) : v = BitVec.ofNat 32 n := by
  rw [← h, BitVec.ofNat_toNat, BitVec.setWidth_eq]

theorem opModeOf_of_toNat {v : Word} {m : OpMode} (h : v.toNat = m.code) : opModeOf v = some m := by
  rw [word_eq_ofNat h, opModeOf_code]

theorem ctrlModeOf_of_toNat {v : Word} {m : CtrlMode} (h : v.toNat = m.code) : ctrlModeOf v = some m := by
  rw [word_eq_ofNat h, ctrlModeOf_code]

theorem trigSourceOf_of_toNat {v : Word} {src : TrigSource} (h : v.toNat = src.code) : trigSourceOf v = some src := by
  rw [word_eq_ofNat h, trigSourceOf_code]

theorem burstTypeOf_of_toNat {v : Word} {k : BurstType} (h : v.toNat = k.code) : burstTypeOf v = some k := by
  rw [word_eq_ofNat h, burstTypeOf_code]

theorem CtrlMode.code_le (m : CtrlMode) : m.code ≤ 2 := by cases m <;> decide
theorem TrigSource.code_le (src : TrigSource) : src.code ≤ 2 := by cases src <;> decide
theorem BurstType.code_le (k : BurstType) : k.code ≤ 2 := by cases k <;> decide

theorem slotCfgOf_gpio_toNat (v : Word) : (slotCfgOf v).gpio.toNat = v.toNat % 256 := by
  simp [slotCfgOf]

theorem slotReserved_ne_zero_iff (v : Word) : slotReserved v ≠ 0 ↔ 2 ^ 10 ≤ v.toNat := by
  have hv := v.isLt
  rw [slotReserved, ne_eq, BitVec.toNat_eq, BitVec.extractLsb'_toNat, Nat.shiftRight_eq_div_pow]
  simp only [BitVec.ofNat_eq_ofNat, BitVec.toNat_ofNat]
  omega

theorem wrapAngle_toNat (v : Word) : ((wrapAngle v).toNat : Int) = v.toInt % 360000 := by
  rw [wrapAngle, BitVec.toNat_ofInt]
  omega

/-! ### The configuration setters -/

/-- 1-PHASE under a modulating control mode, as `WR OP_MODE` tests it (R272). -/
theorem onePhaseUnderModulation_iff (v : Word) (m : CtrlMode) :
    (decide (v = 1) && modulates m) = true ↔ v.toNat = 1 ∧ m ≠ .directDuty := by
  rw [Bool.and_eq_true, decide_eq_true_iff, modulates, decide_eq_true_iff, BitVec.toNat_eq]
  rfl

/-- Modulation in 1-PHASE, as `WR CTRL_MODE` tests it (R273). -/
theorem modulationInOnePhase_iff (v : Word) (m : OpMode) :
    (decide (m = .ph1) && decide (v ≠ 0)) = true ↔ m = .ph1 ∧ v.toNat ≠ 0 := by
  rw [Bool.and_eq_true, decide_eq_true_iff, decide_eq_true_iff, ne_eq, BitVec.toNat_eq]
  rfl

/-- Settles O17: RUNNING, the range, 1-PHASE under modulation, then the store of the mode that the value names. -/
theorem wrOpModeStoresOrRefuses : Obligations.WrOpModeStoresOrRefuses := by
  intro v s hfree
  have hclash := onePhaseUnderModulation_iff v s.stat.ctrlMode
  refine ⟨fun hrun => guardedSet_refuses (st := .conflict) hfree ?running,
    fun hidle hrange => guardedSet_refuses (st := .outOfRange) hfree ?range,
    fun hidle hone hmode => guardedSet_refuses (st := .conflict) hfree ?modulates,
    fun hidle m hm hdirect => (guardedSet_stores hfree ?passes).trans ?stores⟩
  case running => exact firstFailing_of_running hrun
  case range => rw [firstFailing_of_idle hidle, firstFailing_of_fails (decide_eq_true hrange)]
  case modulates =>
    rw [firstFailing_of_idle hidle, firstFailing_of_passes (decide_eq_false (by omega)),
      firstFailing_of_fails (hclash.mpr ⟨hone, hmode⟩)]
  case passes =>
    have hle := OpMode.code_le m
    rw [firstFailing_of_idle hidle, firstFailing_of_passes (decide_eq_false (by omega)),
      firstFailing_of_passes (Bool.eq_false_iff.mpr (mt hclash.mp fun ⟨hone, hmode⟩ => hmode (hdirect hone))),
      firstFailing_nil]
  case stores =>
    rw [opModeOf_of_toNat hm]
    rfl

/-- Settles O18: RUNNING, the range, modulation in 1-PHASE, then the store of the mode that the value names. -/
theorem wrCtrlModeStoresOrRefuses : Obligations.WrCtrlModeStoresOrRefuses := by
  intro v s hfree
  have hclash := modulationInOnePhase_iff v s.stat.opMode
  refine ⟨fun hrun => guardedSet_refuses (st := .conflict) hfree ?running,
    fun hidle hrange => guardedSet_refuses (st := .outOfRange) hfree ?range,
    fun hidle hle hne hone => guardedSet_refuses (st := .conflict) hfree ?modulates,
    fun hidle m hm hdirect => (guardedSet_stores hfree ?passes).trans ?stores⟩
  case running => exact firstFailing_of_running hrun
  case range => rw [firstFailing_of_idle hidle, firstFailing_of_fails (decide_eq_true hrange)]
  case modulates =>
    rw [firstFailing_of_idle hidle, firstFailing_of_passes (decide_eq_false (by omega)),
      firstFailing_of_fails (hclash.mpr ⟨hone, hne⟩)]
  case passes =>
    have hle := CtrlMode.code_le m
    rw [firstFailing_of_idle hidle, firstFailing_of_passes (decide_eq_false (by omega)),
      firstFailing_of_passes (Bool.eq_false_iff.mpr (mt hclash.mp fun ⟨hone, hne⟩ => hne (hdirect hone))),
      firstFailing_nil]
  case stores =>
    rw [ctrlModeOf_of_toNat hm]
    rfl

/-- Settles O19: RUNNING, then R152 on rationals, invariant 4 and invariant 5, each by the lemma that ties the setter's
test to it. -/
theorem wrFreqStoresOrRefuses : Obligations.WrFreqStoresOrRefuses := by
  intro v s hfree legal margin slow
  have hlegal : _ ↔ legal := legalF_iff s.params.clkHz v.toNat
  have hmargin : _ ↔ margin := inv4_iff_nat v.toNat s.stat.deadtime.toNat s.stat.minDuty.toNat
  have hslow : _ ↔ slow := inv5_iff s.runtime.speed.toInt v.toNat
  refine ⟨fun hrun => guardedSet_refuses (st := .conflict) hfree ?running,
    fun hidle hfreq => guardedSet_refuses (st := .outOfRange) hfree ?illegal,
    fun hidle hfreq hroom => guardedSet_refuses (st := .outOfRange) hfree ?noMargin,
    fun hidle hfreq hroom hspeed => guardedSet_refuses (st := .conflict) hfree ?tooFast,
    fun hidle hfreq hroom hspeed => guardedSet_stores hfree ?passes⟩
  case running => exact firstFailing_of_running hrun
  case illegal => rw [firstFailing_of_idle hidle, firstFailing_of_unmet (mt hlegal.mp hfreq)]
  case noMargin =>
    rw [firstFailing_of_idle hidle, firstFailing_of_met (hlegal.mpr hfreq),
      firstFailing_of_unmet (mt hmargin.mp hroom)]
  case tooFast =>
    rw [firstFailing_of_idle hidle, firstFailing_of_met (hlegal.mpr hfreq),
      firstFailing_of_met (hmargin.mpr hroom), firstFailing_of_unmet (mt hslow.mp hspeed)]
  case passes =>
    rw [firstFailing_of_idle hidle, firstFailing_of_met (hlegal.mpr hfreq),
      firstFailing_of_met (hmargin.mpr hroom), firstFailing_of_met (hslow.mpr hspeed), firstFailing_nil]

/-- Settles O20: RUNNING, then invariant 4. -/
theorem wrDeadtimeStoresOrRefuses : Obligations.WrDeadtimeStoresOrRefuses := by
  intro v s hfree margin
  have hmargin : _ ↔ margin := inv4_iff_nat s.stat.freq.toNat v.toNat s.stat.minDuty.toNat
  refine ⟨fun hrun => guardedSet_refuses (st := .conflict) hfree ?running,
    fun hidle hroom => guardedSet_refuses (st := .outOfRange) hfree ?noMargin,
    fun hidle hroom => guardedSet_stores hfree ?passes⟩
  case running => exact firstFailing_of_running hrun
  case noMargin => rw [firstFailing_of_idle hidle, firstFailing_of_unmet (mt hmargin.mp hroom)]
  case passes =>
    rw [firstFailing_of_idle hidle, firstFailing_of_met (hmargin.mpr hroom), firstFailing_nil]

/-- Settles O21: RUNNING, the range, then invariant 4. -/
theorem wrMinDutyStoresOrRefuses : Obligations.WrMinDutyStoresOrRefuses := by
  intro v s hfree margin
  have hmargin : _ ↔ margin := inv4_iff_nat s.stat.freq.toNat s.stat.deadtime.toNat v.toNat
  refine ⟨fun hrun => guardedSet_refuses (st := .conflict) hfree ?running,
    fun hidle hrange => guardedSet_refuses (st := .outOfRange) hfree ?range,
    fun hidle hle hroom => guardedSet_refuses (st := .outOfRange) hfree ?noMargin,
    fun hidle hle hroom => guardedSet_stores hfree ?passes⟩
  case running => exact firstFailing_of_running hrun
  case range => rw [firstFailing_of_idle hidle, firstFailing_of_fails (decide_eq_true hrange)]
  case noMargin =>
    rw [firstFailing_of_idle hidle, firstFailing_of_passes (decide_eq_false hle.not_gt),
      firstFailing_of_unmet (mt hmargin.mp hroom)]
  case passes =>
    rw [firstFailing_of_idle hidle, firstFailing_of_passes (decide_eq_false hle.not_gt),
      firstFailing_of_met (hmargin.mpr hroom), firstFailing_nil]

/-! ### The slot setters -/

/-- The setter of a slot's register. -/
def slotSetter (v : Word) : Slot → Instr
  | .l0 => .wrPh0Ls v
  | .h0 => .wrPh0Hs v
  | .l1 => .wrPh1Ls v
  | .h1 => .wrPh1Hs v
  | .l2 => .wrPh2Ls v
  | .h2 => .wrPh2Hs v

theorem exec_slotSetter (v : Word) (sl : Slot) (s : State) : exec (slotSetter v sl) s = wrSlot sl v s := by
  cases sl <;> rfl

/-- Check 5 of a slot setter, on the channel numbers. -/
theorem State.channelInUse_slotCfgOf_iff (s : State) (sl : Slot) (v : Word) :
    s.channelInUse sl (slotCfgOf v).gpio = true ↔
      ∃ other, other ≠ sl ∧
        (s.stat.ph.get other).gpio.toNat % s.params.chRepeat = v.toNat % 256 % s.params.chRepeat := by
  rw [State.channelInUse_iff]
  simp only [chanOf, slotCfgOf_gpio_toNat]

/-- Settles O22: the five checks of the one setter that the six registers share, then the store of that slot alone. -/
theorem wrSlotStoresOrRefuses : Obligations.WrSlotStoresOrRefuses := by
  intro i sl v s hfree hmem gpio taken
  replace hmem : (i, sl) ∈ Slot.all.map fun sl => (slotSetter v sl, sl) := hmem
  obtain ⟨sl, -, hsl⟩ := List.mem_map.mp hmem
  obtain ⟨rfl, rfl⟩ := Prod.mk.inj hsl
  rw [exec_slotSetter]
  have hgpio : (slotCfgOf v).gpio.toNat = gpio := slotCfgOf_gpio_toNat v
  have hreserved := slotReserved_ne_zero_iff v
  have htaken : _ ↔ taken := s.channelInUse_slotCfgOf_iff sl v
  refine ⟨fun hrun => guardedSet_refuses (st := .conflict) hfree ?running,
    fun hidle hout => guardedSet_refuses (st := .conflict) hfree ?enabled,
    fun hidle hout hbits => guardedSet_refuses (st := .outOfRange) hfree ?reserved,
    fun hidle hout hbits hrange => guardedSet_refuses (st := .outOfRange) hfree ?noGpio,
    fun hidle hout hbits hrange hother => guardedSet_refuses (st := .conflict) hfree ?taken,
    fun hidle hout hbits hrange hother => ⟨s.stat.ph.set sl (slotCfgOf v), ?gpio, ?inv, ?idle, ?others,
      guardedSet_stores hfree ?passes⟩⟩
  case running => exact firstFailing_of_running hrun
  case enabled => rw [firstFailing_of_idle hidle, firstFailing_of_fails hout]
  case reserved =>
    rw [firstFailing_of_idle hidle, firstFailing_of_passes hout,
      firstFailing_of_fails (decide_eq_true (hreserved.mpr hbits))]
  case noGpio =>
    rw [firstFailing_of_idle hidle, firstFailing_of_passes hout,
      firstFailing_of_passes (decide_eq_false (mt hreserved.mp hbits.not_ge)),
      firstFailing_of_fails (decide_eq_true (hgpio ▸ hrange))]
  case taken =>
    rw [firstFailing_of_idle hidle, firstFailing_of_passes hout,
      firstFailing_of_passes (decide_eq_false (mt hreserved.mp hbits.not_ge)),
      firstFailing_of_passes (decide_eq_false (hgpio ▸ hrange.not_ge)), firstFailing_of_fails (htaken.mpr hother)]
  case passes =>
    rw [firstFailing_of_idle hidle, firstFailing_of_passes hout,
      firstFailing_of_passes (decide_eq_false (mt hreserved.mp hbits.not_ge)),
      firstFailing_of_passes (decide_eq_false (hgpio ▸ hrange.not_ge)),
      firstFailing_of_passes (Bool.eq_false_iff.mpr (mt htaken.mp hother)), firstFailing_nil]
  case gpio => rw [PerSlot.get_set, if_pos rfl, hgpio]
  case inv => rw [PerSlot.get_set, if_pos rfl, slotCfgOf]
  case idle => rw [PerSlot.get_set, if_pos rfl, slotCfgOf]
  case others => exact fun other hne => by rw [PerSlot.get_set, if_neg hne]

/-! ### The runtime setters -/

/-- Settles O23: one bound for the four registers, then the store in the one named. -/
theorem wrDutyAndModIndexStoreOrRefuse : Obligations.WrDutyAndModIndexStoreOrRefuse := by
  refine fun v s hfree => ⟨fun hbig i hi => ?refuses, fun hle => ?stores⟩
  case refuses =>
    simp only [List.mem_cons, List.not_mem_nil, or_false] at hi
    obtain rfl | rfl | rfl | rfl := hi
    all_goals exact guardedSet_refuses (st := .outOfRange) hfree (firstFailing_of_fails (decide_eq_true hbig))
  case stores =>
    have hpasses : firstFailing [(decide (65536 < v.toNat), Status.outOfRange)] = none :=
      firstFailing_of_passes (decide_eq_false hle.not_gt)
    exact ⟨guardedSet_stores hfree hpasses, guardedSet_stores hfree hpasses, guardedSet_stores hfree hpasses,
      guardedSet_stores hfree hpasses⟩

/-- Settles O24: the value stored is the remainder, which no other value below 360000 is congruent to. -/
theorem wrAngleStoresTheWrappedAngle : Obligations.WrAngleStoresTheWrappedAngle := fun v _ hfree =>
  ⟨wrapAngle v, wrapAngle_lt v, Int.dvd_self_sub_of_emod_eq (wrapAngle_toNat v).symm,
    guardedSet_stores hfree firstFailing_nil⟩

/-- Settles O25: the one check is invariant 5 with the new speed. -/
theorem wrSpeedStoresOrRefuses : Obligations.WrSpeedStoresOrRefuses := fun v s hfree =>
  have hslow := inv5_iff v.toInt s.stat.freq.toNat
  ⟨fun hfast => guardedSet_refuses (st := .conflict) hfree (firstFailing_of_unmet (mt hslow.mp hfast.not_ge)),
    fun hle => guardedSet_stores hfree (firstFailing_of_met (hslow.mpr hle))⟩

/-! ### The setters of the trigger and of the burst -/

/-- Settles O26: the range, then the store with `CONFIGURE` of the source that the value names. -/
theorem wrTrigSourceStoresAndConfigures : Obligations.WrTrigSourceStoresAndConfigures := by
  refine fun v s hfree =>
    ⟨fun hrange => guardedSet_refuses (st := .outOfRange) hfree (firstFailing_of_fails (decide_eq_true hrange)),
      fun src hsrc => (guardedSet_stores hfree (firstFailing_of_passes (decide_eq_false ?inRange))).trans ?stores⟩
  case inRange => exact (hsrc.trans_le (TrigSource.code_le src)).not_gt
  case stores =>
    rw [trigSourceOf_of_toNat hsrc]
    rfl

/-- Settles O27: the range, then the store of the type that the value names. -/
theorem wrBurstTypeStoresOrRefuses : Obligations.WrBurstTypeStoresOrRefuses := by
  refine fun v s hfree =>
    ⟨fun hrange => guardedSet_refuses (st := .outOfRange) hfree (firstFailing_of_fails (decide_eq_true hrange)),
      fun k hk => (guardedSet_stores hfree (firstFailing_of_passes (decide_eq_false ?inRange))).trans ?stores⟩
  case inRange => exact (hk.trans_le (BurstType.code_le k)).not_gt
  case stores =>
    rw [burstTypeOf_of_toNat hk]
    rfl

/-- Settles O28: a setter with no check to fail. -/
theorem uncheckedSettersStore : Obligations.UncheckedSettersStore := fun _ _ hfree =>
  ⟨guardedSet_stores hfree firstFailing_nil, guardedSet_stores hfree firstFailing_nil,
    guardedSet_stores hfree firstFailing_nil, guardedSet_stores hfree firstFailing_nil⟩

/-! ### What a refusal leaves -/

/-- All the ways in which a host command can end: an error status on the state before (R270, R340), the status OK, or no
response yet. -/
inductive EndsAs (s : State) : State → Prop
  /-- an error status; nothing else changes -/
  | error (st : Status) : EndsAs s (s.fail st)
  /-- the status OK behind any effect -/
  | ok (u : State) (v : Word) : EndsAs s (u.respond .ok v)
  /-- the response port is left alone -/
  | unanswered {t : State} (h : t.rsp = s.rsp) : EndsAs s t

theorem guardedSet_endsAs {s e t : State} {l : List (Bool × Status)} (h : guardedSet s l e = .next t) :
    EndsAs s t := by
  obtain ⟨-, ⟨st, -, rfl⟩ | ⟨-, rfl⟩⟩ := guardedSet_next h
  · exact .error st
  · exact .ok e 0

theorem readCommand_endsAs {s t : State} {r : Reg} (h : readCommand s r = .next t) : EndsAs s t := by
  obtain ⟨-, rfl⟩ := readCommand_next h
  exact .ok s _

theorem trigCommand_endsAs {s t : State} {src : TrigSource} (h : trigCommand s src = .next t) : EndsAs s t := by
  obtain ⟨-, rfl⟩ := trigCommand_next h
  exact .ok (s.fire src) 0

theorem execAbort_endsAs {s t : State} (h : execAbort s = .next t) : EndsAs s t := by
  obtain ⟨-, rfl⟩ := hostCommand_next h
  exact .ok _ 0

theorem execRstdef_endsAs {s t : State} (h : execRstdef s = .next t) : EndsAs s t := by
  obtain ⟨-, rfl⟩ := hostCommand_next h
  exact .unanswered rfl

/-- Every host command ends so: the setters, the reads, the other commands. -/
theorem exec_endsAs {i : Instr} {s t : State} (hhost : fromHost i = true) (h : exec i s = .next t) : EndsAs s t := by
  cases i with
  | wrOpMode v | wrCtrlMode v | wrFreq v | wrDeadtime v | wrMinDuty v | wrPh0Ls v | wrPh0Hs v | wrPh1Ls v | wrPh1Hs v
  | wrPh2Ls v | wrPh2Hs v | wrDuty0 v | wrDuty1 v | wrDuty2 v | wrModIndex v | wrSpeed v | wrTrigSource v
  | wrBurstType v => exact guardedSet_endsAs h
  | wrAngle v | wrTrigDelay v | wrTimerInterval v | wrBurstCount v | wrBurstDuration v =>
    exact guardedSet_endsAs (l := []) h
  | rdOpMode | rdCtrlMode | rdFreq | rdDeadtime | rdMinDuty | rdPh0Ls | rdPh0Hs | rdPh1Ls | rdPh1Hs | rdPh2Ls | rdPh2Hs
  | rdDuty0 | rdDuty1 | rdDuty2 | rdModIndex | rdAngle | rdSpeed | rdTrigSource | rdTrigDelay | rdTimerInterval
  | rdBurstType | rdBurstCount | rdBurstDuration | rdStatus => exact readCommand_endsAs h
  | trigImmediate | trigInternalTimer | trigBus => exact trigCommand_endsAs h
  | abort => exact execAbort_endsAs h
  | rstdef => exact execRstdef_endsAs h
  | cycle | poll | dlyexp | itfire | rstdone => exact absurd hhost (by decide)

/-- The status field of a response word (R102). -/
theorem statusCode_of_rspWord {st : Status} {v d : Word} {code : Nat} (h : rspWord st v = BitVec.ofNat 2 code ++ d) :
    st.code = BitVec.ofNat 2 code := by
  have hfield := congrArg (BitVec.extractLsb' 32 2) h
  rwa [rspWord, BitVec.extractLsb'_append_eq_left, BitVec.extractLsb'_append_eq_left] at hfield

/-- Settles O29: a command that answers a nonzero status neither answered OK nor left the empty response port alone, so
it ended with an error on the state before. -/
theorem refusedCommandsChangeNothing : Obligations.RefusedCommandsChangeNothing := by
  intro i s t code d hhost hempty h hrsp hpos hle
  cases exec_endsAs hhost h with
  | error st =>
    have hcode := statusCode_of_rspWord (Option.some.inj hrsp)
    rw [answer, ← hcode]
    rfl
  | ok u v =>
    have hcode := congrArg BitVec.toNat (statusCode_of_rspWord (Option.some.inj hrsp))
    simp only [Status.code, BitVec.ofNat_eq_ofNat, BitVec.toNat_ofNat] at hcode
    omega
  | unanswered hkept => cases hempty.symm.trans (hkept.symm.trans hrsp)

/-! ### The reads -/

/-- The value of a slot register as a number (R46). -/
def slotValue (c : SlotCfg) : Nat := c.gpio.toNat + 256 * c.inv.toNat + 512 * c.idle.toNat

/-- The raw value of each register as a number (R41 to R58). -/
def State.regValue (s : State) : Reg → Nat
  | .opMode => s.stat.opMode.code
  | .ctrlMode => s.stat.ctrlMode.code
  | .freq => s.stat.freq.toNat
  | .deadtime => s.stat.deadtime.toNat
  | .minDuty => s.stat.minDuty.toNat
  | .ph0Ls => slotValue s.stat.ph.l0
  | .ph0Hs => slotValue s.stat.ph.h0
  | .ph1Ls => slotValue s.stat.ph.l1
  | .ph1Hs => slotValue s.stat.ph.h1
  | .ph2Ls => slotValue s.stat.ph.l2
  | .ph2Hs => slotValue s.stat.ph.h2
  | .duty0 => s.runtime.duty.v0.toNat
  | .duty1 => s.runtime.duty.v1.toNat
  | .duty2 => s.runtime.duty.v2.toNat
  | .modIndex => s.runtime.modIndex.toNat
  | .angle => s.runtime.angle.toNat
  | .speed => s.runtime.speed.toNat
  | .trigSource => s.trigger.source.code
  | .trigDelay => s.trigger.delay.toNat
  | .timerInterval => s.trigger.interval.toNat
  | .burstType => s.burst.kind.code
  | .burstCount => s.burst.count.toNat
  | .burstDuration => s.burst.duration.toNat
  | .status => (if s.eng.run = .running then 1 else 0) + 2 * s.running.toNat

theorem toNat_append_eq {m n : Nat} (x : BitVec m) (y : BitVec n) : (x ++ y).toNat = x.toNat * 2 ^ n + y.toNat := by
  rw [BitVec.toNat_append, ← Nat.shiftLeft_add_eq_or_of_lt y.isLt, Nat.shiftLeft_eq]

theorem slotWord_eq_ofNat (c : SlotCfg) : slotWord c = BitVec.ofNat 32 (slotValue c) := by
  apply BitVec.eq_of_toNat_eq
  have hzero : (0 : BitVec 22).toNat = 0 := rfl
  have hinv := c.inv.toNat_le
  have hidle := c.idle.toNat_le
  rw [slotWord, slotValue, toNat_append_eq, toNat_append_eq, toNat_append_eq, BitVec.toNat_ofBool, BitVec.toNat_ofBool,
    BitVec.toNat_ofNat, hzero]
  omega

theorem State.statusWord_eq_ofNat (s : State) :
    s.statusWord = BitVec.ofNat 32 ((if s.eng.run = .running then 1 else 0) + 2 * s.running.toNat) := by
  rw [State.statusWord, State.isRunning]
  cases s.eng.run <;> cases s.running <;> rfl

/-- What a register reads as is its value, as a word. -/
theorem State.readReg_eq_ofNat (s : State) (r : Reg) : s.readReg r = BitVec.ofNat 32 (s.regValue r) := by
  cases r with
  | opMode | ctrlMode | trigSource | burstType => rfl
  | ph0Ls | ph0Hs | ph1Ls | ph1Hs | ph2Ls | ph2Hs => exact slotWord_eq_ofNat _
  | status => exact s.statusWord_eq_ofNat
  | _ => exact word_eq_ofNat rfl

theorem exec_rdInstr (r : Reg) (s : State) : exec r.rdInstr s = readCommand s r := by cases r <;> rfl

/-- Settles O30: the 24 reads with their values are the mapped registers in address order with theirs. -/
theorem readsAnswerTheRawValue : Obligations.ReadsAnswerTheRawValue := by
  intro i x s hfree hmem
  replace hmem : (i, x) ∈ Reg.all.map fun r => (r.rdInstr, s.regValue r) := hmem
  obtain ⟨r, -, hr⟩ := List.mem_map.mp hmem
  obtain ⟨rfl, rfl⟩ := Prod.mk.inj hr
  rw [exec_rdInstr, ← s.readReg_eq_ofNat]
  exact hostCommand_of_free _ _ hfree

/-! ### The trigger and the reset -/

theorem exec_trig_of_free {i : Instr} {src : TrigSource} {s : State} (hfree : s.rstWait = false)
    (hi : (i, src) ∈
      [(Instr.trigImmediate, TrigSource.immediate), (.trigInternalTimer, .internalTimer), (.trigBus, .bus)]) :
    exec i s = .next ((s.fire src).respond .ok 0) := by
  simp only [List.mem_cons, List.not_mem_nil, or_false, Prod.mk.injEq] at hi
  obtain ⟨rfl, rfl⟩ | ⟨rfl, rfl⟩ | ⟨rfl, rfl⟩ := hi
  all_goals exact hostCommand_of_free _ _ hfree

/-- Settles O31: `FIRE` by its test of the source, then `ARM_DELAY` by its own. -/
theorem trigArmsTheDelayOnAMatch : Obligations.TrigArmsTheDelayOnAMatch := by
  intro i src s hfree hi
  rw [exec_trig_of_free hfree hi]
  refine ⟨fun hmatch hnone => ?arms, fun hdrop => ?drops⟩
  case arms => rw [State.fire, if_pos hmatch, State.armDelay_of_free hnone]; rfl
  case drops =>
    have hsame : s.fire src = s := by
      obtain ⟨hmatch, hfire⟩ | ⟨-, hfire⟩ := s.fire_eq src
      · rw [hfire, s.armDelay_of_pending (hdrop.resolve_left (not_not_intro hmatch))]
      · exact hfire
    rw [hsame]
    rfl

/-- Settles O32: both are host commands without a check. -/
theorem abortAndRstdefClearRunning : Obligations.AbortAndRstdefClearRunning := fun _ hfree =>
  ⟨exec_abort_of_free hfree, hostCommand_of_free _ _ hfree⟩

theorem execRstdone_of_enabled {s : State} (hwait : s.rstWait = true) (hidle : s.eng.run = .idle) :
    execRstdone s = .next s.completeReset := by
  rw [execRstdone, hwait, State.isRunning_of_idle hidle]
  rfl

/-- Settles O33: the event is enabled, and the default source BUS cancels the internal timer. -/
theorem rstdoneRestoresTheDefaults : Obligations.RstdoneRestoresTheDefaults := fun _ hwait hidle =>
  execRstdone_of_enabled hwait hidle

end Sys2Proof.Machine

/-! What a step serves of all that is presented (R349, R109): the first, in the order of the oldest occasion, that may be
served now. -/

namespace Sys2Proof.Machine

/-! ### What is taken and what stays pending -/

theorem keepOccasion_eq_ite (o : Occasion) (rest : List Occasion) :
    keepOccasion o rest = if o.cmd = none ∧ o.ev = 0 then rest else o :: rest := by
  simp only [keepOccasion, Occasion.spent, Bool.and_eq_true, Option.isNone_iff_eq_none, decide_eq_true_eq]

/-- Behind occasions with nothing to serve, an occasion is served from the first source in its completed order that may
be served; of the older ones those stay in which a host request waits. -/
theorem takeNext_of_first {w : Bool} {older rest : List Occasion} {o : Occasion} {before after : List Source}
    {src : Source} {x : Taken} (holder : ∀ p ∈ older, ∀ y, ¬ servable w p y)
    (horder : o.arb ++ Source.every = before ++ src :: after) (hsrc : servable w o src)
    (hbefore : ∀ y ∈ before, ¬ servable w o y) (hpresents : o.take src = some x) :
    takeNext w (older ++ o :: rest) =
      some (x, older.filter (fun p => p.cmd.isSome) ++ keepOccasion (o.without src) rest) := by
  have hhere : takeNext w (o :: rest) = some (x, keepOccasion (o.without src) rest) := by
    simp only [takeNext_cons, Occasion.choose_eq_some_of_first horder hsrc hbefore, hpresents, Option.map_some]
  rw [takeNext_append w older _ holder, hhere, Option.map_some]

/-! ### The step on what is taken -/

theorem step_of_event {s : State} {e : Event} {pending : List Occasion}
    (h : takeNext s.rstWait s.sched = some (.event e, pending)) : step s = exec e.instr (s.served pending) := by
  rw [step, h]

theorem step_of_command {s : State} {c : HostCmd} {pending : List Occasion} {i : Instr}
    (h : takeNext s.rstWait s.sched = some (.host c, pending)) (hi : hostInstr c = some i) :
    step s = exec i (s.servedHost c pending) := by
  simp only [step, h, hi]

theorem step_of_no_command {s : State} {c : HostCmd} {pending : List Occasion}
    (h : takeNext s.rstWait s.sched = some (.host c, pending)) (hi : hostInstr c = none) :
    step s = .next ((s.servedHost c pending).fail .illegal) := by
  simp only [step, h, hi]

/-- Settles O7: what stays of the occasion is the occasion without the source served, and the step is that of the
event, of the request's operation, or of a request that has none. -/
theorem theFirstInOrderIsServedFirst : Obligations.TheFirstInOrderIsServedFirst := by
  intro s older rest o before after src hsched holder horder hsrc hbefore
  refine ⟨o.without src, o.leftOver_without src, ?_⟩
  have htake {x : Taken} (hpresents : o.take src = some x) :
      takeNext s.rstWait s.sched = some (x, older.filter (fun p => p.cmd.isSome) ++
        if (o.without src).cmd = none ∧ (o.without src).ev = 0 then rest else o.without src :: rest) := by
    rw [hsched, takeNext_of_first holder horder hsrc hbefore hpresents, keepOccasion_eq_ite]
  refine ⟨fun e he => ?event, fun req oe hhost hcmd => ?request⟩
  case event =>
    have hpresents : o.take src = some (.event e) := by rw [he, Occasion.take]
    exact step_of_event (htake hpresents)
  case request =>
    have hpresents : o.take src = some (.host { req := req, outEn := oe }) := by
      rw [hhost, Occasion.take, hcmd, Option.map_some]
    exact ⟨fun w i hword hdec => step_of_command (htake hpresents) (hostInstr_eq_some hword hdec),
      fun hbad => step_of_no_command (htake hpresents) (hostInstr_eq_none fun _ => malformed_rejected hbad)⟩

end Sys2Proof.Machine

/-! The start with current parameters (R398) and the events that follow a reset (R381). -/

namespace Sys2Proof.Machine

/-- Settles O41: `POLL` keeps a state legal, for its first part has compiled by the time its second part starts; and a
legal state is RUNNING with current parameters alone. -/
theorem startsUseFreshParameters : Obligations.StartsUseFreshParameters := by
  intro s t hlegal _ ht hrun
  have hprimed : Primed t := (hlegal.exec ht).primed hrun
  obtain ⟨-, hclean⟩ := hprimed.runningMode
  exact ⟨hclean, hprimed.compiled⟩

/-- At reset nothing is dirty, no trigger is pending and the source is the bus, so neither part of `POLL` has work
(R63, R211, R212). -/
theorem exec_poll_resetWith (p : Params) : exec .poll (State.resetWith p) = .next (State.resetWith p) := by
  obtain ⟨-, huntriggered, -⟩ := pollWithoutStart (State.resetWith p)
  exact huntriggered rfl rfl fun hsource => nomatch hsource

/-- Settles O16: reset clears what enables each of the four other events: the interrupt, the delay, the interval timer
and the wait of the host (R63). -/
theorem firstEventsAfterResetChangeNothing : Obligations.FirstEventsAfterResetChangeNothing := by
  intro p e
  obtain ⟨hcycle, hdlyexp, hitfire, hrstdone⟩ := disabledEventsAreIgnored (State.resetWith p)
  cases e with
  | cycle => exact hcycle rfl
  | poll => exact exec_poll_resetWith p
  | dlyexp => exact hdlyexp rfl
  | itfire => exact hitfire rfl
  | rstdone => exact hrstdone (.inl rfl)

end Sys2Proof.Machine
